-- ==== Sys2Proof/Word.lean ====
section
/-! DEFINITION. The word types of the SBUS frame synchronizer: what the spec treats as bits (00_scope.md R12, R15). -/

namespace Sys2Proof

/-- A byte of the stream or of a frame: 8 bits, values 0 to 255 (R15). -/
abbrev Byte := BitVec 8

/-- A request word `req[7:0]` (R90). -/
abbrev RequestWord := BitVec 8

/-- The `idx` field of a request word, `req[4:0]` (R90). -/
abbrev ChannelIndex := BitVec 5

/-- The 6-bit poll-case selector `sel[5:0]` (R98). -/
abbrev Selector := BitVec 6

end Sys2Proof
end

