-- ==== Sys2Proof/Config.lean ====
section
/-! DEFINITION. The constants the source fixes (00_scope.md R9), the check of them that R10 asks for, and what a
realisation leaves open (R13): the width of its statistics counters and what an overflowed one reads as. -/

namespace Sys2Proof.Config

/-- Bytes per frame (R9 `FRAME_LEN`). -/
@[simp] abbrev frameLen : Nat := 25
/-- Value required at frame byte 0 (R9 `START_MARK`). -/
abbrev startMark : Byte := 0x0F#8
/-- Value required at frame byte 24 (R9 `END_MARK`). -/
abbrev endMark : Byte := 0x00#8
/-- Offset of the last frame byte (R9 `LAST_POS`). -/
@[simp] abbrev lastPos : Nat := 24
/-- First payload byte offset (R9 `PAYLOAD_FIRST`). -/
@[simp] abbrev payloadFirst : Nat := 1
/-- Payload bytes, offsets 1 to 22 (R9 `PAYLOAD_BYTES`). -/
@[simp] abbrev payloadBytes : Nat := 22
/-- Offset of the flag byte (R9 `FLAGS_POS`). -/
@[simp] abbrev flagsPos : Nat := 23
/-- Packed analog channels (R9 `N_ANALOG`). -/
@[simp] abbrev nAnalog : Nat := 16
/-- Bits per analog channel (R9 `CH_BITS`). -/
@[simp] abbrev chBits : Nat := 11
/-- Payload bits (R9 `PAYLOAD_BITS`). -/
@[simp] abbrev payloadBits : Nat := 176
/-- Digital channels 17 and 18 (R9 `N_DIGITAL`). -/
@[simp] abbrev nDigital : Nat := 2
/-- Channel Set capacity (R9 `N_SLOTS`). -/
@[simp] abbrev nSlots : Nat := 18
/-- A resync happens when the out-of-sync run counter exceeds this (R9 `OOS_THRESHOLD`). -/
@[simp] abbrev oosThreshold : Nat := 10
/-- Largest analog value (R9 `CH_MAX`). -/
@[simp] abbrev chMax : Nat := 2047

/-- Values of the cursor: one for each offset of a frame, 0 to `LAST_POS` (R35). -/
@[simp] abbrev cursorValues : Nat := lastPos + 1
/-- The largest value of the out-of-sync run counter, `OOS_THRESHOLD + 1` (R37). -/
@[simp] abbrev oosMax : Nat := oosThreshold + 1

/-- The equalities R10 asks a model to check when it is elaborated. -/
theorem constants_consistent :
    nAnalog * chBits = payloadBits ∧ payloadBits = 176 ∧ payloadBits = 8 * payloadBytes ∧
    payloadFirst + payloadBytes = flagsPos ∧ flagsPos + 1 = lastPos ∧ lastPos + 1 = frameLen ∧
    nSlots = 18 ∧ nSlots ≥ nAnalog + nDigital ∧ chMax = 2 ^ chBits - 1 := by decide

/-- OPEN (R13): `STAT_W - 1` of a realisation, for `STAT_W` is at least 1 (DESIGN CHOICE, log 6). No value is chosen. -/
opaque statWidthLessOne : Nat

/-- `STAT_W`, the width of each statistics counter in a realisation (R13). -/
def statWidth : Nat := statWidthLessOne + 1

end Sys2Proof.Config

namespace Sys2Proof

/-- One Channel Set slot: an unsigned value of `CH_BITS` bits (R30, R39). -/
abbrev ChannelValue := BitVec Config.chBits

/-- The three statistics counters (10_state.md R43). -/
inductive StatCounter where
  | valid
  | lost
  | resync
  deriving DecidableEq, Repr

/-- FREE VALUE (R13, R215, 93_implementation_defined.md I2; DESIGN CHOICE, log 6): what a realisation shows for a counter whose
true count (second argument) is at or past `2 ^ STAT_W`, in the lifetime numbered by the third argument. -/
opaque Config.overflowedStat : StatCounter → Nat → Nat → BitVec Config.statWidth

end Sys2Proof
end

