-- ==== Sys2Proof/Syntax.lean ====
section
/-! DEFINITION. The syntax: one constructor per row of spec/opcode_table.json. Nine are requests (30_encoding.md R91,
RD_CHANNEL split by its index range as the table splits it), eleven are the cases of POLL (R99). -/

namespace Sys2Proof

/-- The rows of the opcode table. A request's ignored `idx` field (R92) is no operand and is not kept. -/
inductive Instr where
  /-- NOP, an idle step (R210). -/
  | nop
  /-- POLL, the source's `poll()` (R120). -/
  | poll
  /-- RD_CHANNELS, the whole Channel Set (R211). -/
  | rdChannels
  /-- RD_CHANNEL with an index in 0 to 17 (R212). -/
  | rdChannel (idx : ChannelIndex)
  /-- RD_CHANNEL with an index in 18 to 31, the table's row RD_CHANNEL_ERR (R213). -/
  | rdChannelErr (idx : ChannelIndex)
  /-- RD_FAILSAFE (R214). -/
  | rdFailsafe
  /-- RD_STATS (R215). -/
  | rdStats
  /-- RD_SYNC (R216). -/
  | rdSync
  /-- The reserved request `op = 0b111` (R217). -/
  | reserved
  /-- POLL in UNSYNCED, no byte available (R122). -/
  | pollUDefer
  /-- POLL in UNSYNCED that reads a start marker (R123). -/
  | pollUStart
  /-- POLL in UNSYNCED that reads any other byte (R124). -/
  | pollUDiscard
  /-- POLL in SEEKING_END, no byte available (R125). -/
  | pollSDefer
  /-- POLL in SEEKING_END before the last frame position (R126). -/
  | pollSAdvance
  /-- POLL in SEEKING_END at the last position that reads the end marker (R127). -/
  | pollSEndOk
  /-- POLL in SEEKING_END at the last position that reads anything else (R128). -/
  | pollSEndFail
  /-- POLL in SYNCED with fewer than 25 bytes available (R152). -/
  | pollYDefer
  /-- POLL in SYNCED that reads a valid frame (R154). -/
  | pollYValid
  /-- POLL in SYNCED that reads an invalid frame, threshold not exceeded (R155). -/
  | pollYInvalid
  /-- POLL in SYNCED that reads an invalid frame and exceeds the threshold (R156). -/
  | pollYResync
  deriving DecidableEq, Repr

/-- The eleven cases of POLL (R99). -/
inductive PollCase where
  | uDefer
  | uStart
  | uDiscard
  | sDefer
  | sAdvance
  | sEndOk
  | sEndFail
  | yDefer
  | yValid
  | yInvalid
  | yResync
  deriving DecidableEq, Repr

/-- The table's row for a poll case. -/
def PollCase.instr : PollCase → Instr
  | .uDefer => .pollUDefer
  | .uStart => .pollUStart
  | .uDiscard => .pollUDiscard
  | .sDefer => .pollSDefer
  | .sAdvance => .pollSAdvance
  | .sEndOk => .pollSEndOk
  | .sEndFail => .pollSEndFail
  | .yDefer => .pollYDefer
  | .yValid => .pollYValid
  | .yInvalid => .pollYInvalid
  | .yResync => .pollYResync

/-- Which poll case a row is; a request row is none. -/
def Instr.pollCase? : Instr → Option PollCase
  | .pollUDefer => some .uDefer
  | .pollUStart => some .uStart
  | .pollUDiscard => some .uDiscard
  | .pollSDefer => some .sDefer
  | .pollSAdvance => some .sAdvance
  | .pollSEndOk => some .sEndOk
  | .pollSEndFail => some .sEndFail
  | .pollYDefer => some .yDefer
  | .pollYValid => some .yValid
  | .pollYInvalid => some .yInvalid
  | .pollYResync => some .yResync
  | .nop => none
  | .poll => none
  | .rdChannels => none
  | .rdChannel _ => none
  | .rdChannelErr _ => none
  | .rdFailsafe => none
  | .rdStats => none
  | .rdSync => none
  | .reserved => none

/-- A request the host can present, as against a case the core selects within POLL (R91, R99). -/
def Instr.isRequest (i : Instr) : Bool := i.pollCase?.isNone

end Sys2Proof
end

