-- ==== Sys2Proof/WellFormed.lean ====
section
/-! DEFINITION. Which instructions are well formed: an index stands under the row whose condition it meets
(spec/opcode_table.json, conditions `zext(idx) <= 17` and `zext(idx) >= 18`; 43_access.md R212, R213). -/

namespace Sys2Proof

/-- The check. Only the two RD_CHANNEL rows have a condition. -/
def wellFormed : Instr → Bool
  | .rdChannel idx => idx.toNat < Config.nSlots
  | .rdChannelErr idx => Config.nSlots ≤ idx.toNat
  | .nop => true
  | .poll => true
  | .rdChannels => true
  | .rdFailsafe => true
  | .rdStats => true
  | .rdSync => true
  | .reserved => true
  | .pollUDefer => true
  | .pollUStart => true
  | .pollUDiscard => true
  | .pollSDefer => true
  | .pollSAdvance => true
  | .pollSEndOk => true
  | .pollSEndFail => true
  | .pollYDefer => true
  | .pollYValid => true
  | .pollYInvalid => true
  | .pollYResync => true

/-- `i` is well formed. -/
abbrev WellFormed (i : Instr) : Prop := wellFormed i = true

end Sys2Proof
end

