-- ==== Sys2Proof/Decode.lean ====
section
/-! DEFINITION. Decoding a request word (30_encoding.md R90, R91, R100), the poll-case rows (R99) and their selection,
the encoder, and the opcode table's own numbering of bits. -/

namespace Sys2Proof

/-- `op = req[7:5]` (R90). -/
def reqOp (w : RequestWord) : BitVec 3 := w.extractLsb' 5 3

/-- `idx = req[4:0]` (R90). -/
def reqIdx (w : RequestWord) : ChannelIndex := w.extractLsb' 0 5

/-- The request word `{op, idx}` (R90, R105). -/
def requestWord (op : BitVec 3) (idx : ChannelIndex) : RequestWord := op ++ idx

/-- RD_CHANNEL under the table's row whose condition the index meets (R212, R213). -/
def decodeChannelRead (idx : ChannelIndex) : Instr :=
  if idx.toNat < Config.nSlots then .rdChannel idx else .rdChannelErr idx

/-- The decoding procedure R100, total on the 256 request words. The last branch is `op = 0b111`. -/
def decode (w : RequestWord) : Instr :=
  if reqOp w = 0b000#3 then .nop
  else if reqOp w = 0b001#3 then .poll
  else if reqOp w = 0b010#3 then .rdChannels
  else if reqOp w = 0b011#3 then decodeChannelRead (reqIdx w)
  else if reqOp w = 0b100#3 then .rdFailsafe
  else if reqOp w = 0b101#3 then .rdStats
  else if reqOp w = 0b110#3 then .rdSync
  else .reserved

/-- Why a byte string gives no request: there is no request word in it (R104: a request is one 8-bit word). -/
inductive DecodeReject where
  | noRequestWord
  deriving DecidableEq, Repr

/-- Decoding the first request word of a byte string, with the bytes after it (R104). -/
def decodeBytes : List Byte → Except DecodeReject (Instr × List Byte)
  | [] => .error .noRequestWord
  | w :: rest => .ok (decode w, rest)

/-- One row of the poll-case table R99: it matches a selector when `sel & mask = code`. -/
structure PollRow where
  case : PollCase
  code : Selector
  mask : Selector
  deriving DecidableEq, Repr

/-- `sel & mask = match` (R99). -/
def PollRow.hits (r : PollRow) (sel : Selector) : Bool := sel &&& r.mask == r.code

/-- The eleven rows of R99. -/
def pollRows : List PollRow := [
  ⟨.uDefer,   0b000000#6, 0b111000#6⟩,
  ⟨.uStart,   0b001010#6, 0b111010#6⟩,
  ⟨.uDiscard, 0b001000#6, 0b111010#6⟩,
  ⟨.sDefer,   0b010000#6, 0b111000#6⟩,
  ⟨.sAdvance, 0b011000#6, 0b111100#6⟩,
  ⟨.sEndOk,   0b011110#6, 0b111110#6⟩,
  ⟨.sEndFail, 0b011100#6, 0b111110#6⟩,
  ⟨.yDefer,   0b100000#6, 0b111000#6⟩,
  ⟨.yValid,   0b101010#6, 0b111010#6⟩,
  ⟨.yInvalid, 0b101000#6, 0b111011#6⟩,
  ⟨.yResync,  0b101001#6, 0b111011#6⟩]

/-- The case of a selector: the row that matches it (R99). A selector with `s = 0b11` has none. -/
def selectCase (sel : Selector) : Option PollCase := (pollRows.find? (·.hits sel)).map (·.case)

/-- Assembling a selector from its five parts (R98). -/
def assembleSelector (s : BitVec 2) (a l m t : Bool) : Selector :=
  s ++ BitVec.ofBool a ++ BitVec.ofBool l ++ BitVec.ofBool m ++ BitVec.ofBool t

/-- Every selector whose `s` is not 0b11 has a case (R99), so the core never meets one without. -/
theorem selectCase_isSome : ∀ (s : BitVec 2) (a l m t : Bool), s ≠ 0b11#2 →
    (selectCase (assembleSelector s a l m t)).isSome = true := by decide

/-- What identifies a row of the opcode table: a request by its 8-bit word, a poll case by its selector. -/
inductive Code where
  /-- A request word (R90). -/
  | request (w : RequestWord)
  /-- A poll-case selector (R98). -/
  | selector (sel : Selector)
  deriving DecidableEq, Repr

/-- The word the host presents for a request, `idx = 0` but for RD_CHANNEL (R105); a poll case happens in a POLL. -/
def encodeRequest : Instr → RequestWord
  | .nop => requestWord 0b000#3 0
  | .poll => requestWord 0b001#3 0
  | .rdChannels => requestWord 0b010#3 0
  | .rdChannel idx => requestWord 0b011#3 idx
  | .rdChannelErr idx => requestWord 0b011#3 idx
  | .rdFailsafe => requestWord 0b100#3 0
  | .rdStats => requestWord 0b101#3 0
  | .rdSync => requestWord 0b110#3 0
  | .reserved => requestWord 0b111#3 0
  | .pollUDefer => requestWord 0b001#3 0
  | .pollUStart => requestWord 0b001#3 0
  | .pollUDiscard => requestWord 0b001#3 0
  | .pollSDefer => requestWord 0b001#3 0
  | .pollSAdvance => requestWord 0b001#3 0
  | .pollSEndOk => requestWord 0b001#3 0
  | .pollSEndFail => requestWord 0b001#3 0
  | .pollYDefer => requestWord 0b001#3 0
  | .pollYValid => requestWord 0b001#3 0
  | .pollYInvalid => requestWord 0b001#3 0
  | .pollYResync => requestWord 0b001#3 0

/-- The code of a poll case: its row's `match` column (R99). -/
def encodeCase : PollCase → Selector
  | .uDefer => 0b000000#6
  | .uStart => 0b001010#6
  | .uDiscard => 0b001000#6
  | .sDefer => 0b010000#6
  | .sAdvance => 0b011000#6
  | .sEndOk => 0b011110#6
  | .sEndFail => 0b011100#6
  | .yDefer => 0b100000#6
  | .yValid => 0b101010#6
  | .yInvalid => 0b101000#6
  | .yResync => 0b101001#6

/-- The code of an instruction. -/
def encode (i : Instr) : Code :=
  match i.pollCase? with
  | some c => .selector (encodeCase c)
  | none => .request (encodeRequest i)

/-- The instruction of a code: a request word decodes by R100, a selector by R99. -/
def decodeCode : Code → Option Instr
  | .request w => some (decode w)
  | .selector sel => (selectCase sel).map PollCase.instr

/-- The bytes of a table word, first byte lowest; every bit above `nbits` is 0, and a request is one byte (R104). -/
def tableWordBytes (nbits w : Nat) : List Byte := [BitVec.ofNat 8 (w % 2 ^ nbits)]

/-- The instruction the decoder reads from a table word. Request words are the only words it is given: a poll-case
row of the table holds a selector, which no host presents (DESIGN CHOICE, log 8). -/
def decodeTableWord (nbits w : Nat) : Option Instr :=
  match decodeBytes (tableWordBytes nbits w) with
  | .ok (i, _) => some i
  | .error _ => none

end Sys2Proof
end

