-- ==== Sys2Proof/Machine/State.lean ====
section
/-! DEFINITION. The state: the spec's record S (10_state.md R30) as CoreState, and around it the Byte Source, what the
host presents, and the last response. Plain data throughout; the values at reset (R45). -/

namespace Sys2Proof.Machine

/-- The synchronizer's state (R34): a three-constructor type with no value for the code 0b11. -/
inductive SyncState where
  | unsynced
  | seekingEnd
  | synced
  deriving DecidableEq, Repr

/-- The failsafe status (R41): no value for the code 0b11. -/
inductive FailsafeStatus where
  | ok
  | signalLost
  | failsafe
  deriving DecidableEq, Repr

/-- The 18 slots of the Channel Set (R39). -/
abbrev ChannelSet := Vector ChannelValue Config.nSlots

/-- The core state record S of R30. The ranges of R30's table are in the types of `cur` and `oos` (DEDUCED, log 7). -/
structure CoreState where
  /-- The synchronizer's state (R34). -/
  sync : SyncState
  /-- The cursor, 0 to 24 (R35). -/
  cur : Fin Config.cursorValues
  /-- The out-of-sync run counter, 0 to 11 (R36, R37). -/
  oos : Fin (Config.oosMax + 1)
  /-- The Channel Set (R39, R40). -/
  ch : ChannelSet
  /-- The failsafe status (R41). -/
  fs : FailsafeStatus
  /-- Valid frame count, unbounded (R43, R13). -/
  nValid : Nat
  /-- Lost/invalid frame count, unbounded (R43, R13). -/
  nLost : Nat
  /-- Resync event count, unbounded (R43, R13). -/
  nResync : Nat
  deriving DecidableEq, Repr

/-- The error code of a response (R93): no value for the reserved code 0b11. -/
inductive Err where
  /-- Every request that completes. -/
  | ok
  /-- RD_CHANNEL with an index of 18 or more (R213, R241). -/
  | indexRange
  /-- The reserved request (R217, R242). -/
  | illegalOp
  deriving DecidableEq, Repr

/-- The data of a response (R94), in the form the spec gives for a model (R95, R96). -/
inductive RspData where
  /-- NOP: no data, width 0. -/
  | empty
  /-- An error response: data 0 (R93). -/
  | zero
  /-- POLL: bytes consumed by the step (R121), 5 bits. -/
  | consumed (n : BitVec 5)
  /-- RD_CHANNELS: the 18 slots (R95). -/
  | channels (v : ChannelSet)
  /-- RD_CHANNEL: one slot. -/
  | channel (v : ChannelValue)
  /-- RD_FAILSAFE: the status. -/
  | failsafe (f : FailsafeStatus)
  /-- RD_STATS: the record of the three counters (R96). -/
  | stats (valid lost resync : Nat)
  /-- RD_SYNC: sync, cur, oos (R97). -/
  | status (sync : SyncState) (cur : Fin Config.cursorValues) (oos : Fin (Config.oosMax + 1))
  deriving DecidableEq, Repr

/-- One response `rsp = (err, data)` (R93). -/
structure Response where
  err : Err
  data : RspData
  deriving DecidableEq, Repr

/-- What the host does at one step (R251, R78, R243; DESIGN CHOICE, log 1): the bytes it appends to the Byte Source before the step,
the `rst` input, the request word (`none`: req_valid = 0), and the most bytes the Byte Source returns to this step's
Read (`none`: it keeps its contract; DESIGN CHOICE, log 4). -/
structure HostInput where
  feed : List Byte
  rst : Bool
  req : Option RequestWord
  deliver : Option Nat
  deriving DecidableEq, Repr

/-- The machine's state. -/
structure State where
  /-- The core's own state S (R30). -/
  core : CoreState
  /-- The Byte Source queue Q, oldest byte first (R61). Host-owned, no part of S (R31). -/
  q : List Byte
  /-- The cap on what the Byte Source returns to the current step's Read (R69, R243; DESIGN CHOICE, log 4). -/
  deliver : Option Nat
  /-- What the host presents at the coming steps, next first; nothing more: steps with no request (DESIGN CHOICE, log 1). -/
  inputs : List HostInput
  /-- The response of the last step; none after a reset step (R93, R270). -/
  rsp : Option Response
  /-- How many resets so far: the index of the free value of an overflowed counter (DESIGN CHOICE, log 6). -/
  life : Nat
  deriving DecidableEq, Repr

/-- What a HostFault carries (R243). -/
inductive HostFaultInfo where
  /-- `Read(n)` returned only `received` bytes although `Avail() >= n`. -/
  | shortRead (n received : Nat)
  deriving DecidableEq, Repr

/-- Why the machine stops. -/
inductive Fault where
  /-- Raised by a POLL whose Byte Source breaks its contract (R69, R243). Safe: the spec gives such a step no next
  state, and a realisation may do anything. -/
  | hostFault (info : HostFaultInfo)
  deriving DecidableEq, Repr

/-- Why an instruction is refused. -/
inductive Refusal where
  /-- Raised by `exec`'s arm of an instruction with no meaning. Safe. No arm raises it: every instruction has one. -/
  | notModelled (mnemonic : String)
  /-- Raised by a poll-case row run in a state whose selector picks another case (R98, R99; DESIGN CHOICE, log 8). Safe: no step runs
  one, since `decode` gives POLL and POLL runs the case the selector picks. -/
  | caseNotSelected (asked : PollCase)
  deriving DecidableEq, Repr

/-- S after reset (R45). -/
def CoreState.reset : CoreState where
  sync := .unsynced
  cur := 0
  oos := 0
  ch := Vector.replicate Config.nSlots 0
  fs := .ok
  nValid := 0
  nLost := 0
  nResync := 0

/-- The machine right after reset: S as R45 says, nothing queued (DESIGN CHOICE, log 3), nothing presented (DESIGN CHOICE, log 1), no response
(R270, DESIGN CHOICE, log 5). -/
def State.reset : State where
  core := CoreState.reset
  q := []
  deliver := none
  inputs := []
  rsp := none
  life := 0

end Sys2Proof.Machine
end

