-- ==== Sys2Proof/Machine/Ops.lean ====
section
/-! DEFINITION. The named operations: the Byte Source primitives Avail and Read (20_memory.md R61, R69; 00_scope.md R17),
respond and the error response (30_encoding.md R93, 60_exceptions.md R241, R242, R246), the counters (R43), reset (R270),
and what the host presents at a step (R251, R78). -/

namespace Sys2Proof.Machine

/-- `Avail()`: the count of bytes available (R61). -/
def State.avail (s : State) : Nat := s.q.length

/-- The bytes `Read(n)` returns: the `n` oldest, or fewer where the Byte Source breaks its contract (R61, R69). -/
def State.offered (s : State) (n : Nat) : List Byte :=
  (s.q.take n).take (s.deliver.getD n)

/-- `n` bytes leave the head of the queue (R61). -/
def State.consume (s : State) (n : Nat) : State := { s with q := s.q.drop n }

/-- `Read(n)`, called only when `Avail() >= n`: the `n` oldest bytes, oldest first, and the state without them; a short
read is HostFault(ShortRead, n, received) (R61, R69, R243). -/
def State.read (s : State) (n : Nat) : Except Fault (Vector Byte n × State) :=
  if h : (s.offered n).length = n then
    .ok (⟨(s.offered n).toArray, by simpa using h⟩, s.consume n)
  else
    .error (.hostFault (.shortRead n (s.offered n).length))

/-- `respond(err, data)`: the step's output (R17, R93). -/
def State.respond (s : State) (err : Err) (data : RspData) : State := { s with rsp := some ⟨err, data⟩ }

/-- Raising an error of a request (R241, R242, R246): the error code with data 0. It saves nothing, changes no mode,
masks nothing and transfers control nowhere; there is no handler and no return from one (R247). -/
def State.respondError (s : State) (err : Err) : State := s.respond err .zero

/-- The writes of one step to S, landing together (R16, R44). -/
def State.setCore (s : State) (c : CoreState) : State := { s with core := c }

/-- The out-of-sync run counter after one more invalid frame (R36, R37). Above the threshold
there is only one value (R156, DEDUCED, log 7). -/
def oosNext (oos : Fin (Config.oosMax + 1)) : Fin (Config.oosMax + 1) :=
  if h : oos.val < Config.oosMax then ⟨oos.val + 1, Nat.succ_lt_succ h⟩ else Fin.last Config.oosMax

/-- The cursor one byte on (R126), for a cursor below `LAST_POS`. -/
def curNext (cur : Fin Config.cursorValues) : Fin Config.cursorValues :=
  if h : cur.val < Config.lastPos then ⟨cur.val + 1, Nat.succ_lt_succ h⟩ else Fin.last Config.lastPos

/-- A counter's value (R43). -/
def CoreState.stat (c : CoreState) : StatCounter → Nat
  | .valid => c.nValid
  | .lost => c.nLost
  | .resync => c.nResync

/-- A reset step (R270, R271, R272): S takes its reset values, there is no response, the Byte Source is not touched. -/
def State.takeReset (s : State) : State :=
  { s with core := CoreState.reset, rsp := none, life := s.life + 1 }

/-- A step at which the host does nothing: no bytes, no reset, no request (R210, R251). -/
def HostInput.idle : HostInput where
  feed := []
  rst := false
  req := none
  deliver := none

/-- A step at which the host presents one request and does nothing else. -/
def HostInput.request (w : RequestWord) : HostInput := { HostInput.idle with req := some w }

/-- What the host presents at the coming step. -/
def State.nextInput (s : State) : HostInput := s.inputs.headD HostInput.idle

/-- The coming step's input taken up: its bytes appended to the tail of the queue (R78), its delivery cap in force, the
script one step on. -/
def State.present (s : State) : State :=
  { s with
    q := s.q ++ s.nextInput.feed
    deliver := s.nextInput.deliver
    inputs := s.inputs.tail }

/-- The instruction a step runs: the decoded request word, or NOP where none is presented (R100, R210, R251). -/
def HostInput.instr (h : HostInput) : Instr :=
  match h.req with
  | none => .nop
  | some w => decode w

/-- The byte string of a table word as the request word a host presents: its first byte. -/
def tableRequest (nbits w : Nat) : RequestWord := (tableWordBytes nbits w).headD 0

end Sys2Proof.Machine
end

