-- ==== Sys2Proof/Machine/Flags.lean ====
section
/-! DEFINITION. The flag byte of a frame, byte 23 (20_memory.md R62, 42_decode.md R185, R186). The core itself has no
condition codes (10_state.md R42): these bits reach only slots 16 and 17 and the failsafe status. -/

namespace Sys2Proof.Machine

/-- Digital channel 17, byte 23 bit 0, zero-extended to a slot (R185). -/
def digital17 (flags : Byte) : ChannelValue := (flags.extractLsb' 0 1).setWidth Config.chBits

/-- Digital channel 18, byte 23 bit 1, zero-extended to a slot (R185). -/
def digital18 (flags : Byte) : ChannelValue := (flags.extractLsb' 1 1).setWidth Config.chBits

/-- The failsafe status: bit 3 wins, then bit 2 (R186). -/
def failsafeOf (flags : Byte) : FailsafeStatus :=
  if flags.getLsbD 3 then .failsafe
  else if flags.getLsbD 2 then .signalLost
  else .ok

end Sys2Proof.Machine
end

