-- ==== Sys2Proof/Machine/Operands.lean ====
section
/-! DEFINITION. Operands and layouts: the frame and its fields (20_memory.md R62-R65, 30_encoding.md R101), the channel
decoder and Pack (42_decode.md R180-R190), the codes (R34, R41, R93), response data words (R94-R97), and the parts of the
poll-case selector (R98). -/

namespace Sys2Proof.Machine

/-! ### Little-endian packing -/

/-- The number whose `w`-bit digits are the given words, the first least significant (R64, R95, R101). -/
def packLE {w : Nat} (l : List (BitVec w)) : Nat :=
  l.foldr (fun d acc => d.toNat + 2 ^ w * acc) 0

/-! ### The frame -/

/-- A candidate frame: 25 bytes, `F[0]` first (R62, R63). -/
abbrev Frame := Vector Byte Config.frameLen

/-- The frame as one 200-bit word `W`, byte 0 least significant (R101). -/
def Frame.word (F : Frame) : BitVec (8 * Config.frameLen) := BitVec.ofNat (8 * Config.frameLen) (packLE F.toList)

/-- Bytes 1 to 22 (R62). -/
def Frame.payloadList (F : Frame) : List Byte := (F.toList.drop Config.payloadFirst).take Config.payloadBytes

/-- The 176-bit payload `P(F)`, byte 1 least significant (R64). -/
def Frame.payload (F : Frame) : Nat := packLE F.payloadList

/-- The flag byte, `F[23]` (R62). -/
def Frame.flags (F : Frame) : Byte := F[Config.flagsPos]

/-- Stream bit `i` of the payload, `F[1 + (i >> 3)][i & 7]`, for `i` in 0 to 175 (R64). -/
def Frame.streamBit (F : Frame) (i : Nat) : Bool := (F.toList.getD (Config.payloadFirst + i / 8) 0).getLsbD (i % 8)

/-- The Frame Validator's predicate: the two markers and nothing else (R151). -/
def Frame.valid (F : Frame) : Bool := F[0] == Config.startMark && F[Config.lastPos] == Config.endMark

/-- Analog channel `k`: `(P >> (11 * k)) & 0x7FF` (R180, R182). -/
def Frame.analog (F : Frame) (k : Nat) : ChannelValue := BitVec.ofNat Config.chBits (F.payload >>> (Config.chBits * k))

/-- The Channel Set a frame decodes to: 16 analog channels, then digital channels 17 and 18 (R180, R185). -/
def Frame.channels (F : Frame) : ChannelSet :=
  Vector.ofFn fun i =>
    if i.val < Config.nAnalog then F.analog i.val
    else if i.val = Config.nAnalog then digital17 F.flags
    else digital18 F.flags

/-- The failsafe status a frame decodes to (R180, R186). -/
def Frame.failsafe (F : Frame) : FailsafeStatus := failsafeOf F.flags

/-- Decode: all 18 slots and `fs` overwritten together (R180, R187). -/
def CoreState.decodeFrame (c : CoreState) (F : Frame) : CoreState :=
  { c with ch := F.channels, fs := F.failsafe }

/-- Payload byte `b` (0 to 21) of packed analog values: `(P >> (8 * b)) & 0xFF` with `P` the sum of `v[k] << 11k` (R190). -/
def packByte (v : Vector ChannelValue Config.nAnalog) (b : Nat) : Byte := BitVec.ofNat 8 (packLE v.toList >>> (8 * b))

/-- `Pack(v, g)` (R190): the 25-byte frame that carries the 16 analog values `v` and the flag byte `g`. -/
def pack (v : Vector ChannelValue Config.nAnalog) (g : Byte) : Frame :=
  Vector.ofFn fun j =>
    if j.val = 0 then Config.startMark
    else if j.val < Config.flagsPos then packByte v (j.val - Config.payloadFirst)
    else if j.val = Config.flagsPos then g
    else Config.endMark

/-! ### Codes -/

/-- The code of the sync state (R34). -/
def SyncState.code : SyncState → BitVec 2
  | .unsynced => 0b00#2
  | .seekingEnd => 0b01#2
  | .synced => 0b10#2

/-- The code of the failsafe status (R41). -/
def FailsafeStatus.code : FailsafeStatus → BitVec 2
  | .ok => 0b00#2
  | .signalLost => 0b01#2
  | .failsafe => 0b10#2

/-- The code of an error (R93). -/
def Err.code : Err → BitVec 2
  | .ok => 0b00#2
  | .indexRange => 0b01#2
  | .illegalOp => 0b10#2

theorem SyncState.code_ne_three (x : SyncState) : x.code ≠ 0b11#2 := by cases x <;> decide

/-! ### Response data (R94-R97) -/

/-- One counter at the port of a realisation: the count while it is below `2 ^ STAT_W`, else a free value (R13, R96,
R215; DESIGN CHOICE, log 6). -/
def statField (which : StatCounter) (n life : Nat) : BitVec Config.statWidth :=
  if n < 2 ^ Config.statWidth then BitVec.ofNat Config.statWidth n
  else Config.overflowedStat which n life

/-- The width of a response's data (R94); an error's data is 0 in any width. -/
def RspData.width : RspData → Nat
  | .empty => 0
  | .zero => 0
  | .consumed _ => 5
  | .channels _ => Config.nSlots * Config.chBits
  | .channel _ => Config.chBits
  | .failsafe _ => 2
  | .stats _ _ _ => 3 * Config.statWidth
  | .status _ _ _ => 11

/-- RD_SYNC's data word: `data[1:0] = sync`, `data[6:2] = cur`, `data[10:7] = oos` (R97). -/
def statusWord (sync : SyncState) (cur : Fin Config.cursorValues) (oos : Fin (Config.oosMax + 1)) : BitVec 11 :=
  BitVec.ofNat 4 oos.val ++ BitVec.ofNat 5 cur.val ++ sync.code

/-- A response's data as an unsigned value (R94-R97). -/
def RspData.word (life : Nat) : RspData → Nat
  | .empty => 0
  | .zero => 0
  | .consumed n => n.toNat
  | .channels v => packLE v.toList
  | .channel v => v.toNat
  | .failsafe f => f.code.toNat
  | .stats valid lost resync =>
    packLE [statField .valid valid life, statField .lost lost life, statField .resync resync life]
  | .status sync cur oos => (statusWord sync cur oos).toNat

/-! ### RD_CHANNEL's operand -/

/-- Slot `idx` of the Channel Set, none for an index of 18 or more: never clamped or wrapped (R212, R213). -/
def CoreState.slot? (c : CoreState) (idx : ChannelIndex) : Option ChannelValue := c.ch[idx.toNat]?

/-! ### The poll-case selector (R98) -/

/-- `need`: 1 byte while searching, 25 in SYNCED (R68, R98). -/
def SyncState.need : SyncState → Nat
  | .unsynced => 1
  | .seekingEnd => 1
  | .synced => Config.frameLen

/-- `A`: enough bytes are available (R98). -/
def State.enough (s : State) : Bool := s.core.sync.need ≤ s.avail

/-- `L`: SEEKING_END at the last frame position (R98). -/
def State.atLast (s : State) : Bool := s.core.sync == .seekingEnd && s.core.cur.val == Config.lastPos

/-- `M`: the marker match on the bytes this step reads (R98); 0 where none are read, and where the read is short and the
step faults (DESIGN CHOICE, log 12). -/
def State.markerMatch (s : State) : Bool :=
  match s.core.sync with
  | .unsynced =>
    match s.read 1 with
    | .ok (b, _) => b[0] == Config.startMark
    | .error _ => false
  | .seekingEnd =>
    match s.read 1 with
    | .ok (b, _) => s.atLast && b[0] == Config.endMark
    | .error _ => false
  | .synced =>
    match s.read Config.frameLen with
    | .ok (F, _) => Frame.valid F
    | .error _ => false

/-- `T`: SYNCED, a frame read and invalid, and `oos + 1 > 10` (R98). -/
def State.overThreshold (s : State) : Bool :=
  s.core.sync == .synced && s.enough && !s.markerMatch && Config.oosThreshold < s.core.oos.val + 1

/-- The selector `sel[5:0]` of a POLL in this state (R98). -/
def State.selector (s : State) : Selector :=
  assembleSelector s.core.sync.code s.enough s.atLast s.markerMatch s.overThreshold

/-- Every state's selector has a case (R99). -/
theorem State.selector_hasCase (s : State) : (selectCase s.selector).isSome = true :=
  selectCase_isSome _ _ _ _ _ (SyncState.code_ne_three _)

/-- The one case R99 gives for the selector. -/
def State.pollCase (s : State) : PollCase := (selectCase s.selector).get s.selector_hasCase

/-- The fault of a POLL that has enough bytes available and then reads short (R243), where it happens. -/
def State.shortRead (s : State) : Option Fault :=
  if s.enough then
    match s.read s.core.sync.need with
    | .ok _ => none
    | .error f => some f
  else none

end Sys2Proof.Machine
end

