-- ==== Sys2Proof/Machine/Access.lean ====
section
/-! DEFINITION. The accessor requests (43_access.md): NOP, the reads, the reserved request. Each only responds (R218). -/

namespace Sys2Proof.Machine

/-- What a meaning answers. -/
abbrev Answer := Host.Outcome State Fault Refusal

/-- `respond(OK, data)` and nothing else (R218). -/
def answerWith (data : RspData) (s : State) : Answer := .next (s.respond .ok data)

/-- RD_CHANNEL for any index: the slot, or INDEX_RANGE with data 0 (R212, R213). -/
def answerSlot (idx : ChannelIndex) (s : State) : Answer :=
  match s.core.slot? idx with
  | some v => answerWith (.channel v) s
  | none => .next (s.respondError .indexRange)

/-- NOP (R210). -/
def execNop (s : State) : Answer := answerWith .empty s

/-- RD_CHANNELS (R211). -/
def execRdChannels (s : State) : Answer := answerWith (.channels s.core.ch) s

/-- RD_CHANNEL, index in range (R212). -/
def execRdChannel (idx : ChannelIndex) (s : State) : Answer := answerSlot idx s

/-- RD_CHANNEL, index out of range (R213). -/
def execRdChannelErr (idx : ChannelIndex) (s : State) : Answer := answerSlot idx s

/-- RD_FAILSAFE (R214). -/
def execRdFailsafe (s : State) : Answer := answerWith (.failsafe s.core.fs) s

/-- RD_STATS (R215). -/
def execRdStats (s : State) : Answer := answerWith (.stats s.core.nValid s.core.nLost s.core.nResync) s

/-- RD_SYNC (R216). -/
def execRdSync (s : State) : Answer := answerWith (.status s.core.sync s.core.cur s.core.oos) s

/-- RESERVED: ILLEGAL_OP with data 0 (R217). -/
def execReserved (s : State) : Answer := .next (s.respondError .illegalOp)

end Sys2Proof.Machine
end

