-- ==== Sys2Proof/Machine/Sync.lean ====
section
/-! DEFINITION. The two shapes of a poll case, a deferral and a read, and the seven cases of the searching synchronizer
(40_sync.md R122-R128). A case row has its effect in the states whose selector picks it (30_encoding.md R99). -/

namespace Sys2Proof.Machine

/-- A poll case in a state: a short read is HostFault (R243), of whichever case; else a case the selector does not pick is
refused (DESIGN CHOICE, log 8). -/
def whenSelected (c : PollCase) (s : State) (answer : Answer) : Answer :=
  match s.shortRead with
  | some f => .fault f
  | none => if s.pollCase = c then answer else .refused (.caseNotSelected c)

/-- A deferred case: nothing read, nothing written, `respond(OK, 0)` (R122, R125, R152). -/
def deferCase (c : PollCase) (s : State) : Answer :=
  whenSelected c s (.next (s.respond .ok (.consumed 0)))

/-- A reading case: `Read(n)`, the writes to S, `respond(OK, n)` (R121). -/
def readCase (c : PollCase) (n : Nat) (effect : Vector Byte n → CoreState → CoreState) (s : State) : Answer :=
  whenSelected c s <|
    match s.read n with
    | .ok (bytes, s') => .next ((s'.setCore (effect bytes s.core)).respond .ok (.consumed (BitVec.ofNat 5 n)))
    | .error f => .fault f

/-- POLL_U_DEFER (R122). -/
def execPollUDefer (s : State) : Answer := deferCase .uDefer s

/-- POLL_U_START: `sync <- SEEKING_END; cur <- 1` (R123). -/
def execPollUStart (s : State) : Answer :=
  readCase .uStart 1 (fun _ c => { c with sync := .seekingEnd, cur := 1 }) s

/-- POLL_U_DISCARD: the byte is discarded (R124). -/
def execPollUDiscard (s : State) : Answer := readCase .uDiscard 1 (fun _ c => c) s

/-- POLL_S_DEFER (R125). -/
def execPollSDefer (s : State) : Answer := deferCase .sDefer s

/-- POLL_S_ADVANCE: `cur <- cur + 1`, the byte not inspected (R126). -/
def execPollSAdvance (s : State) : Answer :=
  readCase .sAdvance 1 (fun _ c => { c with cur := curNext c.cur }) s

/-- POLL_S_END_OK: `sync <- SYNCED; cur <- 0; oos <- 0` (R127). -/
def execPollSEndOk (s : State) : Answer :=
  readCase .sEndOk 1 (fun _ c => { c with sync := .synced, cur := 0, oos := 0 }) s

/-- POLL_S_END_FAIL: `sync <- UNSYNCED; cur <- 0`; the byte is not tried as a start marker (R128). -/
def execPollSEndFail (s : State) : Answer :=
  readCase .sEndFail 1 (fun _ c => { c with sync := .unsynced, cur := 0 }) s

end Sys2Proof.Machine
end

