-- ==== Sys2Proof/Machine/Validate.lean ====
section
/-! DEFINITION. The four cases of POLL in SYNCED: the Frame Validator, the statistics counters and the resync
(41_validate.md R150-R156), with the channel decoder on a valid frame (42_decode.md R187). -/

namespace Sys2Proof.Machine

/-- What an invalid frame writes in any case: `nLost + 1`, `oos + 1` (R155, R156). -/
def CoreState.countLost (c : CoreState) : CoreState :=
  { c with nLost := c.nLost + 1, oos := oosNext c.oos }

/-- POLL_Y_DEFER: no partial-frame read (R152). -/
def execPollYDefer (s : State) : Answer := deferCase .yDefer s

/-- POLL_Y_VALID: `nValid + 1; oos <- 0; Decode(F)` (R154). -/
def execPollYValid (s : State) : Answer :=
  readCase .yValid Config.frameLen
    (fun F c => CoreState.decodeFrame { c with nValid := c.nValid + 1, oos := 0 } F) s

/-- POLL_Y_INVALID: `nLost + 1; oos + 1`, still SYNCED, not decoded (R155). -/
def execPollYInvalid (s : State) : Answer :=
  readCase .yInvalid Config.frameLen (fun _ c => c.countLost) s

/-- POLL_Y_RESYNC: `nLost + 1; oos + 1; sync <- UNSYNCED; cur <- 0; nResync + 1` (R156). -/
def execPollYResync (s : State) : Answer :=
  readCase .yResync Config.frameLen
    (fun _ c => { c.countLost with sync := .unsynced, cur := 0, nResync := c.nResync + 1 }) s

end Sys2Proof.Machine
end

