-- ==== Sys2Proof/Machine/Poll.lean ====
section
/-! DEFINITION. The POLL request (40_sync.md R120): the one case its selector picks (30_encoding.md R98, R99). -/

namespace Sys2Proof.Machine

/-- POLL (R120, R150): the case of this state's selector. -/
def execPoll (s : State) : Answer :=
  match s.pollCase with
  | .uDefer => execPollUDefer s
  | .uStart => execPollUStart s
  | .uDiscard => execPollUDiscard s
  | .sDefer => execPollSDefer s
  | .sAdvance => execPollSAdvance s
  | .sEndOk => execPollSEndOk s
  | .sEndFail => execPollSEndFail s
  | .yDefer => execPollYDefer s
  | .yValid => execPollYValid s
  | .yInvalid => execPollYInvalid s
  | .yResync => execPollYResync s

end Sys2Proof.Machine
end

