-- ==== Sys2Proof/Machine/Dispatch.lean ====
section
/-! DEFINITION. The dispatch: one arm per row of spec/opcode_table.json. -/

namespace Sys2Proof.Machine

def exec (i : Instr) (s : State) : Host.Outcome State Fault Refusal :=
  match i with
  | .nop => Sys2Proof.Machine.execNop s
  | .poll => Sys2Proof.Machine.execPoll s
  | .rdChannels => Sys2Proof.Machine.execRdChannels s
  | .rdChannel idx => Sys2Proof.Machine.execRdChannel idx s
  | .rdChannelErr idx => Sys2Proof.Machine.execRdChannelErr idx s
  | .rdFailsafe => Sys2Proof.Machine.execRdFailsafe s
  | .rdStats => Sys2Proof.Machine.execRdStats s
  | .rdSync => Sys2Proof.Machine.execRdSync s
  | .reserved => Sys2Proof.Machine.execReserved s
  | .pollUDefer => Sys2Proof.Machine.execPollUDefer s
  | .pollUStart => Sys2Proof.Machine.execPollUStart s
  | .pollUDiscard => Sys2Proof.Machine.execPollUDiscard s
  | .pollSDefer => Sys2Proof.Machine.execPollSDefer s
  | .pollSAdvance => Sys2Proof.Machine.execPollSAdvance s
  | .pollSEndOk => Sys2Proof.Machine.execPollSEndOk s
  | .pollSEndFail => Sys2Proof.Machine.execPollSEndFail s
  | .pollYDefer => Sys2Proof.Machine.execPollYDefer s
  | .pollYValid => Sys2Proof.Machine.execPollYValid s
  | .pollYInvalid => Sys2Proof.Machine.execPollYInvalid s
  | .pollYResync => Sys2Proof.Machine.execPollYResync s

end Sys2Proof.Machine
end

