-- ==== Sys2Proof/Machine/Step.lean ====
section
/-! DEFINITION. One step (00_scope.md R4; 60_exceptions.md R251): what the host presents is taken up; a reset wins over a
request of the same step (70_reset_and_hazards.md R271); otherwise the decoded request runs. -/

namespace Sys2Proof.Machine

/-- One step of the machine. -/
def step (s : State) : Host.Outcome State Fault Refusal :=
  if s.nextInput.rst then .next s.present.takeReset else exec s.nextInput.instr s.present

/-- The instruction of a table word presented at the coming step: the core fetches nothing (R33), so a request runs
because the host presents it; this stands for the host's presenting it (DESIGN CHOICE, log 2). -/
def State.withFetchWord (s : State) (nbits w : Nat) : State :=
  { s with inputs := HostInput.request (tableRequest nbits w) :: s.inputs }

end Sys2Proof.Machine
end

