-- ==== Sys2Proof/Machine/Instances.lean ====
section
/-! DEFINITION. Several independent instances of the core (00_scope.md R14, 60_exceptions.md R253): each is a whole copy
with its own S, Byte Source and request stream; a step of one is a step of that copy alone (DESIGN CHOICE, log 10). -/

namespace Sys2Proof.Machine

/-- The instances, each with isolated state. -/
abbrev Instances := List State

/-- One step of instance `k`. A number no instance has steps nothing; a step that ends in HostFault or a refusal ends the
step of the whole list in it, and no instance has a next state (DESIGN CHOICE, log 10). -/
def Instances.stepAt (b : Instances) (k : Nat) : Host.Outcome Instances Fault Refusal :=
  match b[k]? with
  | none => .next b
  | some s =>
    match step s with
    | .next t => .next (b.set k t)
    | .fault f => .fault f
    | .refused r => .refused r

end Sys2Proof.Machine
end

