-- ==== Sys2Proof/Machine/Ports.lean ====
section
/-! DEFINITION. The port list of a realisation as functions of the state (60_exceptions.md R251, R252). The input ports
rst, req_valid and req are HostInput's fields; these are the Byte Source's ports and the outputs after a step (DESIGN CHOICE, log 11). -/

namespace Sys2Proof.Machine

/-- `rsp_err` after a step, where there is a response (R251; a reset step has none, R270, DESIGN CHOICE, log 5). -/
def State.rspErr? (s : State) : Option (BitVec 2) := s.rsp.map (·.err.code)

/-- The width of `rsp_data`: max(198, 3 * STAT_W) (R251). -/
def rspDataWidth : Nat := max (Config.nSlots * Config.chBits) (3 * Config.statWidth)

/-- `rsp_data` after a step, where there is a response: the data, zero above its own width (R251, I15). -/
def State.rspData? (s : State) : Option (BitVec rspDataWidth) :=
  s.rsp.map fun r => BitVec.ofNat rspDataWidth (r.data.word s.life)

/-- `bs_rd_n`: the bytes the last step consumed, 0, 1 or 25 (R251, R121). Only a POLL consumes any (R68). -/
def State.bsRdN (s : State) : BitVec 5 :=
  match s.rsp with
  | some ⟨_, .consumed n⟩ => n
  | _ => 0

/-- `bs_avail` as a realisation may drive it, saturated at 25 (R252). -/
def State.bsAvailSaturated (s : State) : Nat := min s.avail Config.frameLen

/-- `bs_data`: byte `j` of the coming read in bits `8j + 7` to `8j` (R251). -/
def State.bsData (s : State) : BitVec (8 * Config.frameLen) :=
  BitVec.ofNat (8 * Config.frameLen) (packLE (s.offered s.core.sync.need))

end Sys2Proof.Machine
end

