-- ==== Sys2Proof/Machine/Program.lean ====
section
/-! DEFINITION. The notation of test programs (30_encoding.md R105): its lines, what each presents to the core, and its
text. RESET and FEED are host actions, not requests. -/

namespace Sys2Proof.Machine

/-- A line of a test program (R105). -/
inductive Line where
  /-- A request line; RD_CHANNEL carries its index. -/
  | request (i : Instr)
  /-- `POLL xN`: N consecutive POLL lines. -/
  | pollTimes (n : Nat)
  /-- `RESET`, the reset input. -/
  | reset
  /-- `FEED b0, b1, ...`: bytes appended to the Byte Source. -/
  | feed (bytes : List Byte)
  /-- `FEED FRAME(ch0..ch15; flags)`: the 25 bytes of Pack (R190). -/
  | feedFrame (v : Vector ChannelValue Config.nAnalog) (flags : Byte)
  /-- `; text`. -/
  | comment (text : String)
  deriving DecidableEq, Repr

/-- The steps of a program. `pending` are the bytes fed since the last step; they are appended before the next one, and
bytes fed after the last step go before one with no request (DESIGN CHOICE, log 9). -/
def assembleFrom (pending : List Byte) : List Line → List HostInput
  | [] => if pending = [] then [] else [{ HostInput.idle with feed := pending }]
  | .request i :: rest =>
    { HostInput.request (encodeRequest i) with feed := pending } :: assembleFrom [] rest
  | .pollTimes 0 :: rest => assembleFrom pending rest
  | .pollTimes (n + 1) :: rest =>
    { HostInput.request (encodeRequest .poll) with feed := pending }
      :: (List.replicate n (HostInput.request (encodeRequest .poll)) ++ assembleFrom [] rest)
  | .reset :: rest => { HostInput.idle with feed := pending, rst := true } :: assembleFrom [] rest
  | .feed bytes :: rest => assembleFrom (pending ++ bytes) rest
  | .feedFrame v flags :: rest => assembleFrom (pending ++ (pack v flags).toList) rest
  | .comment _ :: rest => assembleFrom pending rest

/-- The steps a program presents (R105). -/
def assemble (program : List Line) : List HostInput := assembleFrom [] program

/-- A request as R105 writes it. A poll case happens in a POLL line. -/
def requestText : Instr → String
  | .nop => "NOP"
  | .rdChannels => "RD_CHANNELS"
  | .rdChannel idx => "RD_CHANNEL " ++ toString idx.toNat
  | .rdChannelErr idx => "RD_CHANNEL " ++ toString idx.toNat
  | .rdFailsafe => "RD_FAILSAFE"
  | .rdStats => "RD_STATS"
  | .rdSync => "RD_SYNC"
  | .reserved => "RESERVED"
  | .poll => "POLL"
  | .pollUDefer => "POLL"
  | .pollUStart => "POLL"
  | .pollUDiscard => "POLL"
  | .pollSDefer => "POLL"
  | .pollSAdvance => "POLL"
  | .pollSEndOk => "POLL"
  | .pollSEndFail => "POLL"
  | .pollYDefer => "POLL"
  | .pollYValid => "POLL"
  | .pollYInvalid => "POLL"
  | .pollYResync => "POLL"

/-- A byte as `0x` and two hexadecimal digits (R15). -/
def byteText (b : Byte) : String :=
  "0x" ++ String.ofList [Nat.digitChar (b.toNat / 16), Nat.digitChar (b.toNat % 16)]

/-- The text of a line (R105). -/
def Line.text : Line → String
  | .request i => requestText i
  | .pollTimes n => "POLL x" ++ toString n
  | .reset => "RESET"
  | .feed bytes => "FEED " ++ String.intercalate ", " (bytes.map byteText)
  | .feedFrame v flags =>
    "FEED FRAME(" ++ String.intercalate ", " (v.toList.map fun c => toString c.toNat) ++ "; " ++ byteText flags ++ ")"
  | .comment t => "; " ++ t

end Sys2Proof.Machine
end

