-- ==== Sys2Proof/Safety.lean ====
section
/-! DEFINITION. What claims speak of: the state invariant of 10_state.md R38, the Byte Source contract (20_memory.md R61,
R69; 60_exceptions.md R243), and a safe run. -/

namespace Sys2Proof.Machine

/-- The state invariant R38, clause by clause. -/
abbrev CoreState.Inv (c : CoreState) : Prop :=
  (c.sync = .unsynced → c.cur.val = 0) ∧
  (c.sync = .seekingEnd → 1 ≤ c.cur.val ∧ c.cur.val ≤ Config.lastPos) ∧
  (c.sync = .synced → c.cur.val = 0 ∧ c.oos.val ≤ Config.oosThreshold) ∧
  c.oos.val ≤ Config.oosMax ∧
  (∀ i : Fin Config.nAnalog, (c.ch[i.val]).toNat ≤ Config.chMax) ∧
  (∀ i : Fin Config.nSlots, Config.nAnalog ≤ i.val → c.ch[i.val] = 0 ∨ c.ch[i.val] = 1)

/-- The Byte Source returns at least `n` bytes to a `Read(n)` of this step when `n` are available (R69). -/
abbrev State.delivers (s : State) (n : Nat) : Prop := ∀ k, s.deliver = some k → n ≤ k

/-- The Byte Source keeps its contract in every coming step of the host's script (R69, R243). -/
abbrev State.contractKept (s : State) : Prop := ∀ h ∈ s.inputs, h.deliver = none

/-- A safe outcome: a next state, neither a HostFault nor a refusal. -/
def Safe : Host.Outcome State Fault Refusal → Prop
  | .next _ => True
  | .fault _ => False
  | .refused _ => False

/-- `n` steps, stopping at the first fault or refusal. -/
def run : Nat → State → Host.Outcome State Fault Refusal
  | 0, s => .next s
  | n + 1, s =>
    match step s with
    | .next t => run n t
    | .fault f => .fault f
    | .refused r => .refused r

end Sys2Proof.Machine
end

