-- ==== Sys2Proof/Certificates/Slice0/Obligations.lean ====
section
/-! DEFINITION. The statements for the provers. Each docstring names the rules of spec/ it formalises; where a rule is a
decision the spec itself marks ([decision: D..]) or an inference it marks ([derived]), the docstring says so. -/

open Sys2Proof Sys2Proof.Machine

namespace Sys2Proof.Claims

/-- The frame the 25 oldest bytes of a queue make (R63). -/
def frameOf (q : List Byte) : Frame := Vector.ofFn fun j => q.getD j.val 0

/-- `Valid(F)`, written out (R151). -/
abbrev MarkersHold (F : Frame) : Prop := F[0] = 0x0F#8 ∧ F[24] = 0x00#8

/-- The pseudocode of POLL (R120) and of its SYNCED branch (R150), line by line, for a Byte Source that keeps its
contract: S, the queue and the bytes consumed. `S.oos + 1` is the number itself for a counter up to 10. -/
def pollText (c : CoreState) (q : List Byte) : CoreState × List Byte × Nat :=
  match c.sync with
  | .unsynced =>
    match q with
    | [] => (c, [], 0)
    | b :: q' => if b = 0x0F#8 then ({ c with sync := .seekingEnd, cur := 1 }, q', 1) else (c, q', 1)
  | .seekingEnd =>
    match q with
    | [] => (c, [], 0)
    | b :: q' =>
      if h : c.cur.val < 24 then ({ c with cur := ⟨c.cur.val + 1, Nat.succ_lt_succ h⟩ }, q', 1)
      else if b = 0x00#8 then ({ c with sync := .synced, cur := 0, oos := 0 }, q', 1)
      else ({ c with sync := .unsynced, cur := 0 }, q', 1)
  | .synced =>
    if q.length < 25 then (c, q, 0)
    else if MarkersHold (frameOf q) then
      ({ c with nValid := c.nValid + 1, oos := 0, ch := (frameOf q).channels, fs := (frameOf q).failsafe }, q.drop 25, 25)
    else if c.oos.val + 1 > 10 then
      ({ c with
          nLost := c.nLost + 1
          oos := Fin.ofNat 12 (c.oos.val + 1)
          sync := .unsynced
          cur := 0
          nResync := c.nResync + 1 }, q.drop 25, 25)
    else ({ c with nLost := c.nLost + 1, oos := Fin.ofNat 12 (c.oos.val + 1) }, q.drop 25, 25)

/-- `n` consecutive POLL lines (R105). -/
def polls (n : Nat) : List HostInput := List.replicate n (HostInput.request 0x20#8)

/-- How many of the next `n` steps from `s` are POLLs that read: presented without a reset, with the bytes they need
available (R276's non-deferred POLLs). -/
def pollsThatRead : Nat → State → Nat
  | 0, _ => 0
  | n + 1, s =>
    (if s.nextInput.rst = false ∧ s.nextInput.instr = .poll ∧
        s.core.sync.need ≤ s.q.length + s.nextInput.feed.length then 1 else 0) +
      match step s with
      | .next t => pollsThatRead n t
      | .fault _ => 0
      | .refused _ => 0

/-- Before the first valid frame the Channel Set is all zero and `fs` is OK (R211, R214, R281). -/
abbrev ZeroBeforeFirstFrame (c : CoreState) : Prop := c.nValid = 0 → c.ch = Vector.replicate 18 0 ∧ c.fs = .ok

/-- POLL or one of its cases. -/
def PollLike (i : Instr) : Prop := i = .poll ∨ i.pollCase? ≠ none

end Sys2Proof.Claims

open Sys2Proof.Claims

/-! ### Requests: decoding and encoding -/

/-- Words of the spec's own table (95_test_vectors.md section 2.1) decode to what it says they decode to. -/
def Obligations.SpecTableWordsDecode : Prop :=
  decode 0x00#8 = .nop ∧ decode 0x1F#8 = .nop ∧ decode 0x20#8 = .poll ∧ decode 0x35#8 = .poll ∧
  decode 0x40#8 = .rdChannels ∧ decode 0x60#8 = .rdChannel 0 ∧ decode 0x71#8 = .rdChannel 17 ∧
  decode 0x72#8 = .rdChannelErr 18 ∧ decode 0x7F#8 = .rdChannelErr 31 ∧ decode 0x80#8 = .rdFailsafe ∧
  decode 0xA0#8 = .rdStats ∧ decode 0xC0#8 = .rdSync ∧ decode 0xE0#8 = .reserved ∧ decode 0xFF#8 = .reserved

/-- R100 (a decision of the spec, D16), total on the 256 words: the top three bits choose the form, and RD_CHANNEL's index
is the low five. RD_CHANNEL stands under the opcode table's two rows by its index (log 8). -/
def Obligations.DecodeFollowsOpcodeField : Prop :=
  ∀ w : RequestWord,
    (w.toNat / 32 = 0 → decode w = .nop) ∧ (w.toNat / 32 = 1 → decode w = .poll) ∧
    (w.toNat / 32 = 2 → decode w = .rdChannels) ∧
    (w.toNat / 32 = 3 → w.toNat % 32 < 18 → decode w = .rdChannel (BitVec.ofNat 5 w.toNat)) ∧
    (w.toNat / 32 = 3 → 18 ≤ w.toNat % 32 → decode w = .rdChannelErr (BitVec.ofNat 5 w.toNat)) ∧
    (w.toNat / 32 = 4 → decode w = .rdFailsafe) ∧ (w.toNat / 32 = 5 → decode w = .rdStats) ∧
    (w.toNat / 32 = 6 → decode w = .rdSync) ∧ (w.toNat / 32 = 7 → decode w = .reserved)

/-- R92 (a decision of the spec, D26): with any `op` other than RD_CHANNEL's, a step behaves as with `idx = 0`; with
RD_CHANNEL's, the index is `idx` as an unsigned number. -/
def Obligations.IndexIgnoredOutsideRdChannel : Prop :=
  ∀ (s : State) (h : HostInput) (rest : List HostInput) (w : RequestWord),
    s.inputs = h :: rest → h.req = some w →
    (w.toNat / 32 ≠ 3 →
      step s = step { s with inputs := { h with req := some (w &&& 0xE0#8) } :: rest }) ∧
    (w.toNat / 32 = 3 → ∃ idx : ChannelIndex, idx.toNat = w.toNat % 32 ∧
      (h.instr = .rdChannel idx ∨ h.instr = .rdChannelErr idx))

/-- Decode and encode agree on every well-formed instruction: its code (a request word, or a poll case's selector) decodes
back to it; a request's word followed by any bytes decodes to it with those bytes left; and every request word decodes to
a well-formed request whose own word differs from it at most in the ignored `idx` field. -/
def Obligations.DecodeEncodeRoundTrip : Prop :=
  (∀ i : Instr, WellFormed i → decodeCode (encode i) = some i) ∧
  (∀ (i : Instr) (rest : List Byte), WellFormed i → i.isRequest = true →
    decodeBytes (encodeRequest i :: rest) = .ok (i, rest)) ∧
  (∀ w : RequestWord, WellFormed (decode w) ∧ (decode w).isRequest = true ∧
    encodeRequest (decode w) &&& 0xE0#8 = w &&& 0xE0#8 ∧
    (w.toNat / 32 = 3 → encodeRequest (decode w) = w)) ∧
  (∀ i j : Instr, WellFormed i → WellFormed j → encode i = encode j → i = j)

/-! ### The poll-case selector -/

/-- R98 (a decision of the spec, D16): the six bits of the selector, `M` for a Byte Source that keeps its contract. -/
def Obligations.SelectorBitsFollowState : Prop :=
  ∀ s : State,
    (s.core.sync = .unsynced → s.selector.extractLsb' 4 2 = 0b00#2) ∧
    (s.core.sync = .seekingEnd → s.selector.extractLsb' 4 2 = 0b01#2) ∧
    (s.core.sync = .synced → s.selector.extractLsb' 4 2 = 0b10#2) ∧
    (s.selector.getLsbD 3 = true ↔ (if s.core.sync = .synced then 25 else 1) ≤ s.q.length) ∧
    (s.selector.getLsbD 2 = true ↔ s.core.sync = .seekingEnd ∧ s.core.cur.val = 24) ∧
    (s.selector.getLsbD 3 = false → s.selector.getLsbD 1 = false ∧ s.selector.getLsbD 0 = false) ∧
    (s.core.sync = .unsynced → s.delivers 1 → ∀ b rest, s.q = b :: rest →
      (s.selector.getLsbD 1 = true ↔ b = 0x0F#8)) ∧
    (s.core.sync = .seekingEnd → s.delivers 1 → ∀ b rest, s.q = b :: rest →
      (s.selector.getLsbD 1 = true ↔ s.core.cur.val = 24 ∧ b = 0x00#8)) ∧
    (s.core.sync = .synced → s.delivers 25 → ∀ (F : Frame) (rest), s.q = F.toList ++ rest →
      (s.selector.getLsbD 1 = true ↔ MarkersHold F)) ∧
    (s.selector.getLsbD 0 = true ↔ s.core.sync = .synced ∧ s.selector.getLsbD 3 = true ∧
      s.selector.getLsbD 1 = false ∧ s.core.oos.val + 1 > 10)

/-- R99 (a decision of the spec, D16): the table's rows, exactly one of which matches a state's selector, and each row's
condition. It holds in every state, those outside the invariant among them. -/
def Obligations.PollRowsMatchTheirConditions : Prop :=
  pollRows = [⟨.uDefer, 0b000000#6, 0b111000#6⟩, ⟨.uStart, 0b001010#6, 0b111010#6⟩,
    ⟨.uDiscard, 0b001000#6, 0b111010#6⟩, ⟨.sDefer, 0b010000#6, 0b111000#6⟩, ⟨.sAdvance, 0b011000#6, 0b111100#6⟩,
    ⟨.sEndOk, 0b011110#6, 0b111110#6⟩, ⟨.sEndFail, 0b011100#6, 0b111110#6⟩, ⟨.yDefer, 0b100000#6, 0b111000#6⟩,
    ⟨.yValid, 0b101010#6, 0b111010#6⟩, ⟨.yInvalid, 0b101000#6, 0b111011#6⟩, ⟨.yResync, 0b101001#6, 0b111011#6⟩] ∧
  ∀ s : State,
    (pollRows.filter fun r => s.selector &&& r.mask == r.code).map (·.case) = [s.pollCase] ∧
    (s.delivers s.core.sync.need →
      (s.pollCase = .uDefer ↔ s.core.sync = .unsynced ∧ s.q = []) ∧
      (s.pollCase = .uStart ↔ s.core.sync = .unsynced ∧ ∃ rest, s.q = 0x0F#8 :: rest) ∧
      (s.pollCase = .uDiscard ↔ s.core.sync = .unsynced ∧ ∃ b rest, b ≠ 0x0F#8 ∧ s.q = b :: rest) ∧
      (s.pollCase = .sDefer ↔ s.core.sync = .seekingEnd ∧ s.q = []) ∧
      (s.pollCase = .sAdvance ↔ s.core.sync = .seekingEnd ∧ s.q ≠ [] ∧ s.core.cur.val < 24) ∧
      (s.pollCase = .sEndOk ↔ s.core.sync = .seekingEnd ∧ s.core.cur.val = 24 ∧ ∃ rest, s.q = 0x00#8 :: rest) ∧
      (s.pollCase = .sEndFail ↔ s.core.sync = .seekingEnd ∧ s.core.cur.val = 24 ∧
        ∃ b rest, b ≠ 0x00#8 ∧ s.q = b :: rest) ∧
      (s.pollCase = .yDefer ↔ s.core.sync = .synced ∧ s.q.length < 25) ∧
      (s.pollCase = .yValid ↔ s.core.sync = .synced ∧
        ∃ (F : Frame) (rest : List Byte), s.q = F.toList ++ rest ∧ MarkersHold F) ∧
      (s.pollCase = .yInvalid ↔ s.core.sync = .synced ∧ s.core.oos.val + 1 ≤ 10 ∧
        ∃ (F : Frame) (rest : List Byte), s.q = F.toList ++ rest ∧ ¬ MarkersHold F) ∧
      (s.pollCase = .yResync ↔ s.core.sync = .synced ∧ s.core.oos.val + 1 > 10 ∧
        ∃ (F : Frame) (rest : List Byte), s.q = F.toList ++ rest ∧ ¬ MarkersHold F))

/-! ### A step and reset -/

/-- A step runs the decoded request: with a request word presented and no reset, a step is exactly the instruction the word
decodes to, run once the host's bytes are at the tail of the queue and the presented input is used up. -/
def Obligations.StepRunsDecodedRequest : Prop :=
  ∀ (s : State) (h : HostInput) (rest : List HostInput) (w : RequestWord),
    s.inputs = h :: rest → h.rst = false → h.req = some w →
    step s = exec (decode w) { s with q := s.q ++ h.feed, deliver := h.deliver, inputs := rest }

/-- R251 and R210 for a step at which no request is presented: it is a NOP. That a host's script with nothing left means
such steps, which the second clause says, is the model's choice (DESIGN CHOICE, log 1). -/
def Obligations.StepWithoutRequestIsNop : Prop :=
  (∀ (s : State) (h : HostInput) (rest : List HostInput),
    s.inputs = h :: rest → h.rst = false → h.req = none →
    step s = .next { s with q := s.q ++ h.feed, deliver := h.deliver, inputs := rest, rsp := some ⟨.ok, .empty⟩ }) ∧
  (∀ s : State, s.inputs = [] → step s = .next { s with deliver := none, rsp := some ⟨.ok, .empty⟩ })

/-- R270, R271, R272 (decisions of the spec, D13 and D22): a reset step gives every field of S its reset value, gives no
response, and wins over any request of the step, which is used up unprocessed; queued bytes stay queued. -/
def Obligations.ResetStepWinsAndKeepsQueue : Prop :=
  ∀ (s : State) (h : HostInput) (rest : List HostInput), s.inputs = h :: rest → h.rst = true →
    ∃ t, step s = .next t ∧ t.q = s.q ++ h.feed ∧ t.inputs = rest ∧ t.rsp = none ∧
      t.core.sync = .unsynced ∧ t.core.cur = 0 ∧ t.core.oos = 0 ∧ (∀ i : Fin 18, t.core.ch[i.val] = 0) ∧
      t.core.fs = .ok ∧ t.core.nValid = 0 ∧ t.core.nLost = 0 ∧ t.core.nResync = 0 ∧
      t.core = State.reset.core

/-- The values of R45's table at State.reset. They are the spec's inference (`sync`) and its decisions D12 and D13, and the
source's own words for the Channel Set; the empty queue and script are the model's (log 1, log 3) and not stated here. -/
def Obligations.ResetValuesOfCore : Prop :=
  State.reset.core.sync = .unsynced ∧ State.reset.core.cur = 0 ∧ State.reset.core.oos = 0 ∧
  (∀ i : Fin 18, State.reset.core.ch[i.val] = 0) ∧ State.reset.core.fs = .ok ∧
  State.reset.core.nValid = 0 ∧ State.reset.core.nLost = 0 ∧ State.reset.core.nResync = 0

/-! ### POLL while searching -/

/-- R122: nothing is written but the response, whatever the Byte Source would deliver. -/
def Obligations.PollUDeferChangesNothing : Prop :=
  ∀ s : State, s.core.sync = .unsynced → s.q = [] →
    s.selector &&& 0b111000#6 = 0b000000#6 ∧
    ∀ i, (i = .poll ∨ i = .pollUDefer) → exec i s = .next { s with rsp := some ⟨.ok, .consumed 0⟩ }

/-- R123: `sync` and `cur` are written, one byte is consumed, all else is unchanged. -/
def Obligations.PollUStartOpensCandidate : Prop :=
  ∀ (s : State) (rest : List Byte), s.core.sync = .unsynced → s.q = 0x0F#8 :: rest → s.delivers 1 →
    s.selector &&& 0b111010#6 = 0b001010#6 ∧
    ∀ i, (i = .poll ∨ i = .pollUStart) → exec i s = .next { s with
      core := { s.core with sync := .seekingEnd, cur := 1 }, q := rest, rsp := some ⟨.ok, .consumed 1⟩ }

/-- R124: any byte other than the start marker is consumed and S is unchanged. -/
def Obligations.PollUDiscardDropsByte : Prop :=
  ∀ (s : State) (b : Byte) (rest : List Byte),
    s.core.sync = .unsynced → s.q = b :: rest → b ≠ 0x0F#8 → s.delivers 1 →
    s.selector &&& 0b111010#6 = 0b001000#6 ∧
    ∀ i, (i = .poll ∨ i = .pollUDiscard) → exec i s = .next { s with q := rest, rsp := some ⟨.ok, .consumed 1⟩ }

/-- R125: nothing is written but the response; `cur` keeps its value. -/
def Obligations.PollSDeferKeepsCursor : Prop :=
  ∀ s : State, s.core.sync = .seekingEnd → s.q = [] →
    s.selector &&& 0b111000#6 = 0b010000#6 ∧
    ∀ i, (i = .poll ∨ i = .pollSDefer) → exec i s = .next { s with rsp := some ⟨.ok, .consumed 0⟩ }

/-- R126 (a decision of the spec, D6): below 24 the cursor moves on by one, whatever the byte is. -/
def Obligations.PollSAdvanceMovesCursor : Prop :=
  ∀ (s : State) (b : Byte) (rest : List Byte) (cur' : Fin 25),
    s.core.sync = .seekingEnd → cur'.val = s.core.cur.val + 1 → s.q = b :: rest → s.delivers 1 →
    s.selector &&& 0b111100#6 = 0b011000#6 ∧
    ∀ i, (i = .poll ∨ i = .pollSAdvance) → exec i s = .next { s with
      core := { s.core with cur := cur' }, q := rest, rsp := some ⟨.ok, .consumed 1⟩ }

/-- R127 (a decision of the spec, D9): the end marker at offset 24 gives SYNCED with cursor and run counter 0; the candidate
is not decoded and not counted. -/
def Obligations.PollSEndOkEntersSynced : Prop :=
  ∀ (s : State) (rest : List Byte),
    s.core.sync = .seekingEnd → s.core.cur.val = 24 → s.q = 0x00#8 :: rest → s.delivers 1 →
    s.selector &&& 0b111110#6 = 0b011110#6 ∧
    ∀ i, (i = .poll ∨ i = .pollSEndOk) → exec i s = .next { s with
      core := { s.core with sync := .synced, cur := 0, oos := 0 }, q := rest, rsp := some ⟨.ok, .consumed 1⟩ }

/-- R128 (a decision of the spec, D7): any other byte at offset 24, a start marker too, is consumed and gives UNSYNCED. -/
def Obligations.PollSEndFailDropsCandidate : Prop :=
  ∀ (s : State) (b : Byte) (rest : List Byte),
    s.core.sync = .seekingEnd → s.core.cur.val = 24 → s.q = b :: rest → b ≠ 0x00#8 → s.delivers 1 →
    s.selector &&& 0b111110#6 = 0b011100#6 ∧
    ∀ i, (i = .poll ∨ i = .pollSEndFail) → exec i s = .next { s with
      core := { s.core with sync := .unsynced, cur := 0 }, q := rest, rsp := some ⟨.ok, .consumed 1⟩ }

/-! ### POLL in SYNCED -/

/-- R151: validity is the two markers, for every content of the other 23 bytes. -/
def Obligations.ValidityIsTheTwoMarkers : Prop :=
  ∀ F : Frame, F.valid = true ↔ F[0] = 0x0F#8 ∧ F[24] = 0x00#8

/-- R152: with fewer than 25 bytes available nothing is read and nothing is written but the response. -/
def Obligations.PollYDeferReadsNothing : Prop :=
  ∀ s : State, s.core.sync = .synced → s.q.length < 25 →
    s.selector &&& 0b111000#6 = 0b100000#6 ∧
    ∀ i, (i = .poll ∨ i = .pollYDefer) → exec i s = .next { s with rsp := some ⟨.ok, .consumed 0⟩ }

/-- R154: a valid frame is counted and decoded and ends any run of invalid frames, whatever its flags. -/
def Obligations.PollYValidCountsAndDecodes : Prop :=
  ∀ (s : State) (F : Frame) (rest : List Byte),
    s.core.sync = .synced → s.q = F.toList ++ rest → MarkersHold F → s.delivers 25 →
    s.selector &&& 0b111010#6 = 0b101010#6 ∧
    ∀ i, (i = .poll ∨ i = .pollYValid) → exec i s = .next { s with
      core := { s.core with nValid := s.core.nValid + 1, oos := 0, ch := F.channels, fs := F.failsafe },
      q := rest, rsp := some ⟨.ok, .consumed 25⟩ }

/-- R155: an invalid frame up to the tenth in a row is counted, not decoded, and leaves the core SYNCED. -/
def Obligations.PollYInvalidCountsOnly : Prop :=
  ∀ (s : State) (F : Frame) (rest : List Byte) (oos' : Fin 12),
    s.core.sync = .synced → s.q = F.toList ++ rest → ¬ MarkersHold F → s.delivers 25 →
    s.core.oos.val + 1 ≤ 10 → oos'.val = s.core.oos.val + 1 →
    s.selector &&& 0b111011#6 = 0b101000#6 ∧
    ∀ i, (i = .poll ∨ i = .pollYInvalid) → exec i s = .next { s with
      core := { s.core with nLost := s.core.nLost + 1, oos := oos' }, q := rest, rsp := some ⟨.ok, .consumed 25⟩ }

/-- R156 (a decision of the spec, D8): the invalid frame past the threshold forces UNSYNCED, is itself counted as lost, and
leaves the run counter at 11. The premise is the rule's own, `S.oos = 10`; a counter of 11 in SYNCED, which no run reaches,
is in OutOfSyncElevenOnlyByResync. -/
def Obligations.PollYResyncDropsSync : Prop :=
  ∀ (s : State) (F : Frame) (rest : List Byte),
    s.core.sync = .synced → s.q = F.toList ++ rest → ¬ MarkersHold F → s.delivers 25 → s.core.oos = 10 →
    s.selector &&& 0b111011#6 = 0b101001#6 ∧
    ∀ i, (i = .poll ∨ i = .pollYResync) → exec i s = .next { s with
      core := { s.core with
        nLost := s.core.nLost + 1, oos := 11, sync := .unsynced, cur := 0, nResync := s.core.nResync + 1 },
      q := rest, rsp := some ⟨.ok, .consumed 25⟩ }

/-- R159 (an inference of the spec): in SYNCED a POLL that reads a frame adds one to exactly one of `nValid` and `nLost`. -/
def Obligations.SyncedFrameIsCountedOnce : Prop :=
  ∀ (s : State) (F : Frame) (rest : List Byte), s.core.sync = .synced → s.q = F.toList ++ rest → s.delivers 25 →
    ∃ t, exec .poll s = .next t ∧
      (MarkersHold F → t.core.nValid = s.core.nValid + 1 ∧ t.core.nLost = s.core.nLost) ∧
      (¬ MarkersHold F → t.core.nValid = s.core.nValid ∧ t.core.nLost = s.core.nLost + 1)

/-! ### POLL as a whole -/

/-- R120 and R150 (decisions of the spec, D5 to D8): POLL does what the pseudocode says, in every state whose run counter
is at most 10 in SYNCED, as R38 has it (StepKeepsCoreInvariant, ResetMeetsCoreInvariant). -/
def Obligations.PollFollowsPseudocode : Prop :=
  (∀ w : RequestWord, 0x20 ≤ w.toNat ∧ w.toNat ≤ 0x3F → decode w = .poll) ∧
  ∀ s : State, (s.core.sync = .synced → s.core.oos.val ≤ 10) → s.delivers s.core.sync.need →
    exec .poll s = .next { s with
      core := (pollText s.core s.q).1, q := (pollText s.core s.q).2.1,
      rsp := some ⟨.ok, .consumed (BitVec.ofNat 5 (pollText s.core s.q).2.2)⟩ }

/-- R121 (a decision of the spec, D20): the response is the count of bytes consumed: 0 where the POLL defers, otherwise 1
while searching and 25 in SYNCED. -/
def Obligations.PollRespondsBytesConsumed : Prop :=
  ∀ s t : State, exec .poll s = .next t →
    ∃ n, t.rsp = some ⟨.ok, .consumed (BitVec.ofNat 5 n)⟩ ∧ n ≤ s.q.length ∧ t.q = s.q.drop n ∧
      (s.core.sync = .synced → n = if s.q.length < 25 then 0 else 25) ∧
      (s.core.sync ≠ .synced → n = if s.q.length < 1 then 0 else 1)

/-- R243 (a decision of the spec, D24): a POLL that finds enough bytes and gets fewer ends in HostFault(ShortRead, n,
received). The case rows run directly are in OnlyPollFaults. -/
def Obligations.ShortReadIsHostFault : Prop :=
  ∀ (s : State) (k : Nat),
    s.core.sync.need ≤ s.q.length → s.deliver = some k → k < s.core.sync.need →
    exec .poll s = .fault (.hostFault (.shortRead s.core.sync.need k))

/-- The frame of POLL and of every case row: the host's script, the delivery cap and the lifetime are unchanged, the bytes
read leave the head of the queue and no others do, each field of S is written only in the cases whose rules name it, and
(R132, an inference of the spec) while searching no POLL writes the Channel Set, `fs` or a counter. -/
def Obligations.PollFrameByCase : Prop :=
  ∀ (i : Instr) (s t : State), PollLike i → exec i s = .next t →
    t.inputs = s.inputs ∧ t.deliver = s.deliver ∧ t.life = s.life ∧
    t.q = s.q.drop (if s.q.length < s.core.sync.need then 0 else s.core.sync.need) ∧
    (s.pollCase ≠ .uStart → s.pollCase ≠ .sEndOk → s.pollCase ≠ .sEndFail → s.pollCase ≠ .yResync →
      t.core.sync = s.core.sync) ∧
    (s.pollCase ≠ .uStart → s.pollCase ≠ .sAdvance → s.pollCase ≠ .sEndOk → s.pollCase ≠ .sEndFail →
      s.pollCase ≠ .yResync → t.core.cur = s.core.cur) ∧
    (s.pollCase ≠ .sEndOk → s.pollCase ≠ .yValid → s.pollCase ≠ .yInvalid → s.pollCase ≠ .yResync →
      t.core.oos = s.core.oos) ∧
    (s.pollCase ≠ .yValid → t.core.ch = s.core.ch ∧ t.core.fs = s.core.fs ∧ t.core.nValid = s.core.nValid) ∧
    (s.pollCase ≠ .yInvalid → s.pollCase ≠ .yResync → t.core.nLost = s.core.nLost) ∧
    (s.pollCase ≠ .yResync → t.core.nResync = s.core.nResync) ∧
    (s.core.sync ≠ .synced → t.core.ch = s.core.ch ∧ t.core.fs = s.core.fs ∧ t.core.nValid = s.core.nValid ∧
      t.core.nLost = s.core.nLost ∧ t.core.nResync = s.core.nResync)

/-! ### The accessors -/

/-- R210 (a decision of the spec, D16). -/
def Obligations.NopOnlyResponds : Prop :=
  (∀ w : RequestWord, w.toNat ≤ 0x1F → decode w = .nop) ∧
  ∀ s : State, exec .nop s = .next { s with rsp := some ⟨.ok, .empty⟩ }

/-- R211: the whole Channel Set as it stands; 18 zeros in every state before the first valid frame, for reset leaves the
Channel Set zero with `nValid = 0`, and every step keeps it so while `nValid` is 0. -/
def Obligations.RdChannelsReturnsChannelSet : Prop :=
  (∀ w : RequestWord, 0x40 ≤ w.toNat → w.toNat ≤ 0x5F → decode w = .rdChannels) ∧
  (∀ s : State, exec .rdChannels s = .next { s with rsp := some ⟨.ok, .channels s.core.ch⟩ }) ∧
  ZeroBeforeFirstFrame State.reset.core ∧
  (∀ s t : State, ZeroBeforeFirstFrame s.core → step s = .next t → ZeroBeforeFirstFrame t.core) ∧
  (∀ s : State, ZeroBeforeFirstFrame s.core → s.core.nValid = 0 →
    exec .rdChannels s = .next { s with rsp := some ⟨.ok, .channels (Vector.replicate 18 0)⟩ }) ∧
  exec .rdChannels State.reset = .next { State.reset with rsp := some ⟨.ok, .channels (Vector.replicate 18 0)⟩ }

/-- R212 (a decision of the spec, D11): an index of 0 to 17. Slots 16 and 17 are 0 or 1 in the states of the invariant.
The table's other row with such an index is in AccessorsAreRepeatable. -/
def Obligations.RdChannelReturnsSlot : Prop :=
  (∀ w : RequestWord, 0x60 ≤ w.toNat → w.toNat ≤ 0x71 → decode w = .rdChannel (BitVec.ofNat 5 w.toNat)) ∧
  ∀ (s : State) (idx : ChannelIndex) (h : idx.toNat < 18),
    exec (.rdChannel idx) s = .next { s with rsp := some ⟨.ok, .channel (s.core.ch[idx.toNat]'h)⟩ } ∧
    (s.core.Inv → 16 ≤ idx.toNat → s.core.ch[idx.toNat]'h = 0 ∨ s.core.ch[idx.toNat]'h = 1)

/-- R213 (a decision of the spec, D11 and D17): an index of 18 or more is INDEX_RANGE with data 0, never a slot's value.
The table's other row with such an index is in AccessorsAreRepeatable. -/
def Obligations.RdChannelOutOfRangeIsError : Prop :=
  (∀ w : RequestWord, 0x72 ≤ w.toNat → w.toNat ≤ 0x7F → decode w = .rdChannelErr (BitVec.ofNat 5 w.toNat)) ∧
  ∀ (s : State) (idx : ChannelIndex), 18 ≤ idx.toNat →
    exec (.rdChannelErr idx) s = .next { s with rsp := some ⟨.indexRange, .zero⟩ }

/-- R214 (a decision of the spec, D12): the status, coded 0, 1, 2; OK before the first valid frame (every state reached
from reset with `nValid = 0` is such, RdChannelsReturnsChannelSet). -/
def Obligations.RdFailsafeReturnsStatus : Prop :=
  (∀ w : RequestWord, 0x80 ≤ w.toNat → w.toNat ≤ 0x9F → decode w = .rdFailsafe) ∧
  (∀ s : State, exec .rdFailsafe s = .next { s with rsp := some ⟨.ok, .failsafe s.core.fs⟩ }) ∧
  (∀ s : State, ZeroBeforeFirstFrame s.core → s.core.nValid = 0 →
    exec .rdFailsafe s = .next { s with rsp := some ⟨.ok, .failsafe .ok⟩ }) ∧
  exec .rdFailsafe State.reset = .next { State.reset with rsp := some ⟨.ok, .failsafe .ok⟩ } ∧
  (∀ life, (RspData.failsafe .ok).word life = 0 ∧ (RspData.failsafe .signalLost).word life = 1 ∧
    (RspData.failsafe .failsafe).word life = 2)

/-- R215 (a decision of the spec, D21): the three counters of one state; at the port of a realisation each reads true while
it is below `2 ^ STAT_W`, and past that its value is free (log 6), so nothing is claimed of it. -/
def Obligations.RdStatsReturnsCounters : Prop :=
  (∀ w : RequestWord, 0xA0 ≤ w.toNat → w.toNat ≤ 0xBF → decode w = .rdStats) ∧
  (∀ s : State, exec .rdStats s =
    .next { s with rsp := some ⟨.ok, .stats s.core.nValid s.core.nLost s.core.nResync⟩ }) ∧
  exec .rdStats State.reset = .next { State.reset with rsp := some ⟨.ok, .stats 0 0 0⟩ } ∧
  (∀ (k : StatCounter) (n life : Nat), n < 2 ^ Config.statWidth → (statField k n life).toNat = n)

/-- R216 (a decision of the spec, D19): sync, cur and oos; data word 0 right after reset. -/
def Obligations.RdSyncReturnsStatus : Prop :=
  (∀ w : RequestWord, 0xC0 ≤ w.toNat → w.toNat ≤ 0xDF → decode w = .rdSync) ∧
  (∀ s : State, exec .rdSync s =
    .next { s with rsp := some ⟨.ok, .status s.core.sync s.core.cur s.core.oos⟩ }) ∧
  exec .rdSync State.reset = .next { State.reset with rsp := some ⟨.ok, .status .unsynced 0 0⟩ } ∧
  statusWord .unsynced 0 0 = 0x000#11

/-- R217 (a decision of the spec, D18): the reserved request answers ILLEGAL_OP with data 0 and changes nothing else. -/
def Obligations.ReservedRequestIsIllegalOp : Prop :=
  (∀ w : RequestWord, 0xE0 ≤ w.toNat → decode w = .reserved) ∧
  ∀ s : State, exec .reserved s = .next { s with rsp := some ⟨.illegalOp, .zero⟩ }

/-- R218 (an inference of the spec): a request other than POLL changes the response alone, and repeated it answers the
same, also after any other request that is not POLL. RD_CHANNEL's two rows answer alike for every index when run directly,
an index of the other row's range among them: the model's choice (DESIGN CHOICE, log 8). -/
def Obligations.AccessorsAreRepeatable : Prop :=
  (∀ (i j : Instr) (s : State), i.isRequest = true → i ≠ .poll → j.isRequest = true → j ≠ .poll →
    ∃ r r', exec i s = .next { s with rsp := some r } ∧
      exec j { s with rsp := some r } = .next { s with rsp := some r' } ∧
      exec i { s with rsp := some r' } = .next { s with rsp := some r }) ∧
  (∀ (s : State) (idx : ChannelIndex),
    (18 ≤ idx.toNat → exec (.rdChannel idx) s = .next { s with rsp := some ⟨.indexRange, .zero⟩ }) ∧
    (∀ h : idx.toNat < 18,
      exec (.rdChannelErr idx) s = .next { s with rsp := some ⟨.ok, .channel (s.core.ch[idx.toNat]'h)⟩ }))

/-! ### Errors -/

/-- R241, R242 and R246 (decisions of the spec, D17 and D18): which requests raise which error, and that an error response
has data 0 and leaves every field of the state as it was. -/
def Obligations.ErrorResponsesRecordNothing : Prop :=
  ∀ (i : Instr) (s t : State) (e : Err) (d : RspData), exec i s = .next t → t.rsp = some ⟨e, d⟩ →
    (e = .indexRange ↔ ∃ idx : ChannelIndex, 18 ≤ idx.toNat ∧ (i = .rdChannel idx ∨ i = .rdChannelErr idx)) ∧
    (e = .illegalOp ↔ i = .reserved) ∧
    (e ≠ .ok → d = .zero ∧ t = { s with rsp := some ⟨e, .zero⟩ }) ∧
    Err.indexRange.code = 0b01#2 ∧ Err.illegalOp.code = 0b10#2

/-- R245 (an inference of the spec): a fault is a short read, and only POLL and its case rows meet one, with enough bytes
available; a POLL that starves does not fault. That a case row run directly meets the short read of its state whatever case
the state's selector would pick is the model's choice (DESIGN CHOICE, log 8, log 12). -/
def Obligations.OnlyPollFaults : Prop :=
  (∀ (i : Instr) (s : State) (f : Fault), exec i s = .fault f →
    PollLike i ∧ s.core.sync.need ≤ s.q.length ∧
    ∃ k, s.deliver = some k ∧ k < s.core.sync.need ∧ f = .hostFault (.shortRead s.core.sync.need k)) ∧
  (∀ (s : State) (k : Nat) (c : PollCase),
    s.core.sync.need ≤ s.q.length → s.deliver = some k → k < s.core.sync.need →
    exec c.instr s = .fault (.hostFault (.shortRead s.core.sync.need k)))

/-- Every step completes but a POLL with enough bytes available that the Byte Source does not deliver: whatever the host
presents, in every state; and no step at all is refused. -/
def Obligations.StepCompletesUnderContract : Prop :=
  (∀ s : State,
    (s.nextInput.rst = false → s.nextInput.instr = .poll → s.core.sync.need ≤ s.present.q.length →
      s.present.delivers s.core.sync.need) →
    ∃ t, step s = .next t) ∧
  (∀ (s : State) (r : Refusal), step s ≠ .refused r)

/-! ### The whole machine -/

/-- R38 (an inference of the spec): every step keeps the state invariant, from every state that meets it. -/
def Obligations.StepKeepsCoreInvariant : Prop :=
  ∀ s t : State, s.core.Inv → step s = .next t → t.core.Inv

/-- The invariant R38 holds right after reset. -/
def Obligations.ResetMeetsCoreInvariant : Prop := State.reset.core.Inv

/-- R37 (an inference of the spec): the run counter reaches 11 only on the invalid frame that forces a resync, and keeps 11
while searching until a successful end-marker check or a reset. The last clause is about a counter of 11 in SYNCED, which
no run reaches: there the frame past the threshold leaves it at 11, the model's reading of its range (DEDUCED, log 7). -/
def Obligations.OutOfSyncElevenOnlyByResync : Prop :=
  (∀ s t : State, step s = .next t → s.nextInput.rst = false →
    (s.core.oos ≠ 11 → t.core.oos = 11 →
      s.nextInput.instr = .poll ∧ s.present.pollCase = .yResync ∧ t.core.sync = .unsynced) ∧
    (s.core.oos = 11 → s.core.sync ≠ .synced →
      t.core.oos = 11 ∨ (s.nextInput.instr = .poll ∧ s.present.pollCase = .sEndOk ∧ t.core.oos = 0))) ∧
  (∀ (s : State) (F : Frame) (rest : List Byte),
    s.core.sync = .synced → s.core.oos = 11 → s.q = F.toList ++ rest → ¬ MarkersHold F → s.delivers 25 →
    ∀ i, (i = .poll ∨ i = .pollYResync) → exec i s = .next { s with
      core := { s.core with nLost := s.core.nLost + 1, sync := .unsynced, cur := 0, nResync := s.core.nResync + 1 },
      q := rest, rsp := some ⟨.ok, .consumed 25⟩ })

/-- R40: a step leaves the Channel Set as it was, or is a reset, which zeroes it, or is a POLL in SYNCED that reads a valid
frame, which writes all 18 slots, and `fs` with them, from that frame. -/
def Obligations.ChannelSetWrittenOnlyByDecodeOrReset : Prop :=
  ∀ s t : State, step s = .next t →
    (s.nextInput.rst = true → t.core.ch = Vector.replicate 18 0 ∧ t.core.fs = .ok) ∧
    (s.nextInput.rst = false →
      (t.core.ch = s.core.ch ∧ t.core.fs = s.core.fs) ∨
      (s.nextInput.instr = .poll ∧ s.core.sync = .synced ∧
        ∃ (F : Frame) (rest : List Byte), s.q ++ s.nextInput.feed = F.toList ++ rest ∧ MarkersHold F ∧
          t.core.ch = F.channels ∧ t.core.fs = F.failsafe))

/-- R43: a step other than a reset adds 0 or 1 to each counter, and adds anything only as a POLL in SYNCED; a reset sets
each to 0. -/
def Obligations.CountersRiseByAtMostOne : Prop :=
  ∀ s t : State, step s = .next t →
    (s.nextInput.rst = true → t.core.nValid = 0 ∧ t.core.nLost = 0 ∧ t.core.nResync = 0) ∧
    (s.nextInput.rst = false → ∀ k : StatCounter,
      s.core.stat k ≤ t.core.stat k ∧ t.core.stat k ≤ s.core.stat k + 1 ∧
      (t.core.stat k ≠ s.core.stat k → s.nextInput.instr = .poll ∧ s.core.sync = .synced))

/-- R14 and R253: a step of one instance is a step of that copy, and no other instance changes. -/
def Obligations.InstancesShareNothing : Prop :=
  ∀ (b b' : Instances) (k : Nat) (s : State), b[k]? = some s → b.stepAt k = .next b' →
    (∃ t, step s = .next t ∧ b'[k]? = some t) ∧ b'.length = b.length ∧ ∀ j, j ≠ k → b'[j]? = b[j]?

/-- R252 (an inference of the spec): two states that agree on S, on the delivery cap and on the 25 oldest bytes select the
same case, so a count saturated at 25 is as good as the true one. -/
def Obligations.AvailabilityPast25IsInvisible : Prop :=
  ∀ s t : State, s.core = t.core → s.deliver = t.deliver → s.q.take 25 = t.q.take 25 →
    s.selector = t.selector ∧ s.pollCase = t.pollCase ∧ s.bsAvailSaturated = t.bsAvailSaturated

/-! ### The channel decoder -/

/-- R182: the bits of each analog channel, and its value as a shift and mask of the payload sum. -/
def Obligations.AnalogChannelIsElevenStreamBits : Prop :=
  ∀ (F : Frame) (k : Nat), k < 16 →
    (∀ j, j < 11 → (F.analog k).getLsbD j = (F.toList.getD (1 + (11 * k + j) / 8) 0).getLsbD ((11 * k + j) % 8)) ∧
    (F.analog k).toNat =
      ((∑ b ∈ Finset.range 22, (F.toList.getD (1 + b) 0).toNat <<< (8 * b)) >>> (11 * k)) &&& 0x7FF

/-- R183 (an inference of the spec): the byte spans of the sixteen analog channels, each term zero-extended to 11 bits. -/
def Obligations.AnalogChannelByteSpans : Prop :=
  ∀ F : Frame,
    let f : Fin 25 → Nat → Nat → ChannelValue := fun j hi lo => (F[j].extractLsb hi lo).setWidth 11
    F.analog 0 = f 1 7 0 + (f 2 2 0 <<< 8) ∧
    F.analog 1 = f 2 7 3 + (f 3 5 0 <<< 5) ∧
    F.analog 2 = f 3 7 6 + (f 4 7 0 <<< 2) + (f 5 0 0 <<< 10) ∧
    F.analog 3 = f 5 7 1 + (f 6 3 0 <<< 7) ∧
    F.analog 4 = f 6 7 4 + (f 7 6 0 <<< 4) ∧
    F.analog 5 = f 7 7 7 + (f 8 7 0 <<< 1) + (f 9 1 0 <<< 9) ∧
    F.analog 6 = f 9 7 2 + (f 10 4 0 <<< 6) ∧
    F.analog 7 = f 10 7 5 + (f 11 7 0 <<< 3) ∧
    F.analog 8 = f 12 7 0 + (f 13 2 0 <<< 8) ∧
    F.analog 9 = f 13 7 3 + (f 14 5 0 <<< 5) ∧
    F.analog 10 = f 14 7 6 + (f 15 7 0 <<< 2) + (f 16 0 0 <<< 10) ∧
    F.analog 11 = f 16 7 1 + (f 17 3 0 <<< 7) ∧
    F.analog 12 = f 17 7 4 + (f 18 6 0 <<< 4) ∧
    F.analog 13 = f 18 7 7 + (f 19 7 0 <<< 1) + (f 20 1 0 <<< 9) ∧
    F.analog 14 = f 20 7 2 + (f 21 4 0 <<< 6) ∧
    F.analog 15 = f 21 7 5 + (f 22 7 0 <<< 3)

/-- R185 (a decision of the spec, D10) and R186: slots 16 and 17 are bits 0 and 1 of byte 23 as 0 or 1; bit 3 gives
FAILSAFE, else bit 2 SIGNAL_LOST, else OK. -/
def Obligations.FlagByteGivesDigitalAndFailsafe : Prop :=
  ∀ F : Frame,
    F.channels[16] = (if F[23].getLsbD 0 then 1 else 0) ∧
    F.channels[17] = (if F[23].getLsbD 1 then 1 else 0) ∧
    (F[23].getLsbD 3 = true → F.failsafe = .failsafe) ∧
    (F[23].getLsbD 3 = false → F[23].getLsbD 2 = true → F.failsafe = .signalLost) ∧
    (F[23].getLsbD 3 = false → F[23].getLsbD 2 = false → F.failsafe = .ok)

/-- R181: exactly the 176 bits of bytes 1 to 22 are consumed: two frames have the same sixteen analog channels exactly
when those 22 bytes agree. -/
def Obligations.DecoderConsumesExactlyThePayload : Prop :=
  ∀ F G : Frame,
    (∀ k : Fin 16, F.channels[k.val] = G.channels[k.val]) ↔
    (∀ j : Fin 25, 1 ≤ j.val → j.val ≤ 22 → F[j.val] = G[j.val])

/-- R188 (an inference of the spec): bytes 0 and 24 and bits 4 to 7 of byte 23 do not reach the decoded values. -/
def Obligations.UnreadFrameBitsDoNotMatter : Prop :=
  ∀ F G : Frame, (∀ j : Fin 25, 1 ≤ j.val → j.val ≤ 22 → F[j.val] = G[j.val]) →
    F[23].extractLsb' 0 4 = G[23].extractLsb' 0 4 →
    F.channels = G.channels ∧ F.failsafe = G.failsafe

/-- R190 (an inference of the spec): a packed frame is valid and decodes to what was packed. -/
def Obligations.PackThenDecodeRecoversValues : Prop :=
  ∀ (v : Vector ChannelValue 16) (g : Byte),
    (pack v g).valid = true ∧
    (∀ k : Fin 16, (pack v g).channels[k.val] = v[k.val]) ∧
    (pack v g).channels[16] = (if g.getLsbD 0 then 1 else 0) ∧
    (pack v g).channels[17] = (if g.getLsbD 1 then 1 else 0) ∧
    (pack v g).failsafe = (if g.getLsbD 3 then .failsafe else if g.getLsbD 2 then .signalLost else .ok)

/-- R101 (an inference of the spec): the fields of the frame as one 200-bit word. -/
def Obligations.FrameWordFields : Prop :=
  ∀ F : Frame,
    F.word.extractLsb' 0 8 = F[0] ∧
    (∀ k : Fin 16, F.word.extractLsb' (8 + 11 * k.val) 11 = F.channels[k.val]) ∧
    F.channels[16] = (F.word.extractLsb' 184 1).setWidth 11 ∧
    F.channels[17] = (F.word.extractLsb' 185 1).setWidth 11 ∧
    F.failsafe = (if F.word.getLsbD 187 then .failsafe else if F.word.getLsbD 186 then .signalLost else .ok) ∧
    F.word.extractLsb' 192 8 = F[24]

/-- R189 (an inference of the spec): a second POLL on the identical valid frame leaves the Channel Set and `fs` as the first
left them. -/
def Obligations.DecodingTwiceIsIdempotent : Prop :=
  ∀ (s : State) (F : Frame) (rest : List Byte),
    s.core.sync = .synced → s.q = F.toList ++ (F.toList ++ rest) → MarkersHold F → s.delivers 25 →
    ∃ t u, exec .poll s = .next t ∧ exec .poll t = .next u ∧
      u.core.ch = t.core.ch ∧ u.core.fs = t.core.fs ∧ u.core.nValid = s.core.nValid + 2

/-! ### Response layouts -/

/-- R95, R96 and R97 (decisions of the spec, D17 and D19): in RD_CHANNELS's data slot `i` occupies bits `11 i` to
`11 i + 10`; RD_STATS's layout for counters below `2 ^ STAT_W`, whatever STAT_W is; and RD_SYNC's layout. -/
def Obligations.ResponseDataLayouts : Prop :=
  (∀ (v : ChannelSet) (i : Fin 18) (life : Nat),
    (BitVec.ofNat 198 ((RspData.channels v).word life)).extractLsb' (11 * i.val) 11 = v[i.val]) ∧
  (∀ a b c life : Nat, a < 2 ^ Config.statWidth → b < 2 ^ Config.statWidth → c < 2 ^ Config.statWidth →
    (RspData.stats a b c).word life % 2 ^ Config.statWidth = a ∧
    (RspData.stats a b c).word life / 2 ^ Config.statWidth % 2 ^ Config.statWidth = b ∧
    (RspData.stats a b c).word life / 2 ^ (2 * Config.statWidth) = c) ∧
  (∀ (x : SyncState) (cur : Fin 25) (oos : Fin 12) (life : Nat),
    (RspData.status x cur oos).word life % 4 = x.code.toNat ∧
    (RspData.status x cur oos).word life / 4 % 32 = cur.val ∧
    (RspData.status x cur oos).word life / 128 = oos.val)

/-- R94's widths, and the `rsp_data` port of R251: a response's data fits its width and so the port, counters past
`2 ^ STAT_W` among them. -/
def Obligations.ResponseDataFitsItsWidth : Prop :=
  (∀ (d : RspData) (life : Nat), d.word life < 2 ^ d.width ∧ d.width ≤ rspDataWidth) ∧
  rspDataWidth = max 198 (3 * Config.statWidth) ∧
  RspData.empty.width = 0 ∧ (∀ n, (RspData.consumed n).width = 5) ∧ (∀ v, (RspData.channels v).width = 198) ∧
  (∀ v, (RspData.channel v).width = 11) ∧ (∀ f, (RspData.failsafe f).width = 2) ∧
  (∀ a b c, (RspData.stats a b c).width = 3 * Config.statWidth) ∧ (∀ x c o, (RspData.status x c o).width = 11)

/-! ### Runs -/

/-- R157 (an inference of the spec): ten consecutive invalid frames leave the core SYNCED with no resync; eleven force
exactly one resync. -/
def Obligations.ThresholdIsElevenInvalidFrames : Prop :=
  ∀ (s : State) (frames : List Frame) (rest : List Byte) (more : List HostInput),
    s.core.sync = .synced → s.core.oos = 0 → (∀ F ∈ frames, ¬ MarkersHold F) →
    s.q = (frames.map (·.toList)).flatten ++ rest → s.inputs = polls frames.length ++ more →
    (frames.length = 10 → ∃ t, run 10 s = .next t ∧ t.core.sync = .synced ∧ t.core.oos.val = 10 ∧
      t.core.nLost = s.core.nLost + 10 ∧ t.core.nResync = s.core.nResync) ∧
    (frames.length = 11 → ∃ t, run 11 s = .next t ∧ t.core.sync = .unsynced ∧
      t.core.nLost = s.core.nLost + 11 ∧ t.core.nResync = s.core.nResync + 1)

/-- R131 (an inference of the spec): with no start marker queued or fed and no reset, any number of steps with any requests
leaves S exactly as it was, UNSYNCED, and the next POLL discards or defers. -/
def Obligations.NoStartMarkerStaysUnsynced : Prop :=
  ∀ (n : Nat) (s : State), s.core.sync = .unsynced → s.core.cur = 0 → (∀ b ∈ s.q, b ≠ 0x0F#8) →
    (∀ h ∈ s.inputs, h.rst = false ∧ h.deliver = none ∧ ∀ b ∈ h.feed, b ≠ 0x0F#8) →
    ∃ t, run n s = .next t ∧ t.core = s.core ∧ (t.pollCase = .uDefer ∨ t.pollCase = .uDiscard)

/-- R130 (an inference of the spec): 25 bytes with the two markers in place, whatever the 23 between them, take 25 POLLs
from UNSYNCED to SYNCED, all consumed, none decoded or counted. -/
def Obligations.SearchTakesTwentyFivePolls : Prop :=
  ∀ (s : State) (F : Frame) (rest : List Byte) (more : List HostInput),
    s.core.sync = .unsynced → MarkersHold F → s.q = F.toList ++ rest → s.inputs = polls 25 ++ more →
    ∃ t, run 25 s = .next t ∧ t.core = { s.core with sync := .synced, cur := 0, oos := 0 } ∧ t.q = rest ∧
      t.inputs = more

/-- R276 (an inference of the spec): from reset, whatever the host presents and feeds and however many steps it takes, the
Channel Set is not written while at most 25 of the POLLs have read (so too while at most 25 were presented); with two
well-marked frames fed, the 26th POLL decodes the second. -/
def Obligations.FirstDecodeIsTwentySixthPoll : Prop :=
  (∀ (n : Nat) (script : List HostInput), (∀ h ∈ script, ∀ k, h.deliver = some k → 25 ≤ k) →
    pollsThatRead n { State.reset with inputs := script } ≤ 25 →
    ∃ t, run n { State.reset with inputs := script } = .next t ∧
      t.core.ch = Vector.replicate 18 0 ∧ t.core.fs = .ok ∧ t.core.nValid = 0) ∧
  (∀ (F G : Frame), MarkersHold F → MarkersHold G →
    ∃ t, run 26 { State.reset with
        inputs := { HostInput.request 0x20#8 with feed := F.toList ++ G.toList } :: polls 25 } = .next t ∧
      t.core.ch = G.channels ∧ t.core.fs = G.failsafe ∧ t.core.nValid = 1 ∧ t.q = [])
end

