-- ==== Sys2Proof/Laws/State.lean ====
section
/-! SUPPORT. One lemma per field per update of the state, each true by unfolding its update once. -/

namespace Sys2Proof.Machine

section
variable (s : State) (c : CoreState) (n : Nat) (err : Err) (data : RspData) (F : Frame)

@[simp] theorem State.respond_core : (s.respond err data).core = s.core := rfl
@[simp] theorem State.respond_q : (s.respond err data).q = s.q := rfl
@[simp] theorem State.respond_deliver : (s.respond err data).deliver = s.deliver := rfl
@[simp] theorem State.respond_inputs : (s.respond err data).inputs = s.inputs := rfl
@[simp] theorem State.respond_rsp : (s.respond err data).rsp = some ⟨err, data⟩ := rfl
@[simp] theorem State.respond_life : (s.respond err data).life = s.life := rfl

@[simp] theorem State.respondError_core : (s.respondError err).core = s.core := rfl
@[simp] theorem State.respondError_q : (s.respondError err).q = s.q := rfl
@[simp] theorem State.respondError_deliver : (s.respondError err).deliver = s.deliver := rfl
@[simp] theorem State.respondError_inputs : (s.respondError err).inputs = s.inputs := rfl
@[simp] theorem State.respondError_rsp : (s.respondError err).rsp = some ⟨err, .zero⟩ := rfl
@[simp] theorem State.respondError_life : (s.respondError err).life = s.life := rfl

@[simp] theorem State.setCore_core : (s.setCore c).core = c := rfl
@[simp] theorem State.setCore_q : (s.setCore c).q = s.q := rfl
@[simp] theorem State.setCore_deliver : (s.setCore c).deliver = s.deliver := rfl
@[simp] theorem State.setCore_inputs : (s.setCore c).inputs = s.inputs := rfl
@[simp] theorem State.setCore_rsp : (s.setCore c).rsp = s.rsp := rfl
@[simp] theorem State.setCore_life : (s.setCore c).life = s.life := rfl

@[simp] theorem State.consume_core : (s.consume n).core = s.core := rfl
@[simp] theorem State.consume_q : (s.consume n).q = s.q.drop n := rfl
@[simp] theorem State.consume_deliver : (s.consume n).deliver = s.deliver := rfl
@[simp] theorem State.consume_inputs : (s.consume n).inputs = s.inputs := rfl
@[simp] theorem State.consume_rsp : (s.consume n).rsp = s.rsp := rfl
@[simp] theorem State.consume_life : (s.consume n).life = s.life := rfl

@[simp] theorem State.takeReset_core : s.takeReset.core = CoreState.reset := rfl
@[simp] theorem State.takeReset_q : s.takeReset.q = s.q := rfl
@[simp] theorem State.takeReset_deliver : s.takeReset.deliver = s.deliver := rfl
@[simp] theorem State.takeReset_inputs : s.takeReset.inputs = s.inputs := rfl
@[simp] theorem State.takeReset_rsp : s.takeReset.rsp = none := rfl
@[simp] theorem State.takeReset_life : s.takeReset.life = s.life + 1 := rfl

@[simp] theorem State.present_core : s.present.core = s.core := rfl
@[simp] theorem State.present_q : s.present.q = s.q ++ s.nextInput.feed := rfl
@[simp] theorem State.present_deliver : s.present.deliver = s.nextInput.deliver := rfl
@[simp] theorem State.present_inputs : s.present.inputs = s.inputs.tail := rfl
@[simp] theorem State.present_rsp : s.present.rsp = s.rsp := rfl
@[simp] theorem State.present_life : s.present.life = s.life := rfl

@[simp] theorem CoreState.countLost_sync : c.countLost.sync = c.sync := rfl
@[simp] theorem CoreState.countLost_cur : c.countLost.cur = c.cur := rfl
@[simp] theorem CoreState.countLost_oos : c.countLost.oos = oosNext c.oos := rfl
@[simp] theorem CoreState.countLost_ch : c.countLost.ch = c.ch := rfl
@[simp] theorem CoreState.countLost_fs : c.countLost.fs = c.fs := rfl
@[simp] theorem CoreState.countLost_nValid : c.countLost.nValid = c.nValid := rfl
@[simp] theorem CoreState.countLost_nLost : c.countLost.nLost = c.nLost + 1 := rfl
@[simp] theorem CoreState.countLost_nResync : c.countLost.nResync = c.nResync := rfl

@[simp] theorem CoreState.decodeFrame_sync : (c.decodeFrame F).sync = c.sync := by simp only [CoreState.decodeFrame]
@[simp] theorem CoreState.decodeFrame_cur : (c.decodeFrame F).cur = c.cur := by simp only [CoreState.decodeFrame]
@[simp] theorem CoreState.decodeFrame_oos : (c.decodeFrame F).oos = c.oos := by simp only [CoreState.decodeFrame]
@[simp] theorem CoreState.decodeFrame_ch : (c.decodeFrame F).ch = F.channels := by simp only [CoreState.decodeFrame]
@[simp] theorem CoreState.decodeFrame_fs : (c.decodeFrame F).fs = F.failsafe := by simp only [CoreState.decodeFrame]
@[simp] theorem CoreState.decodeFrame_nValid : (c.decodeFrame F).nValid = c.nValid := by simp only [CoreState.decodeFrame]
@[simp] theorem CoreState.decodeFrame_nLost : (c.decodeFrame F).nLost = c.nLost := by simp only [CoreState.decodeFrame]
@[simp] theorem CoreState.decodeFrame_nResync : (c.decodeFrame F).nResync = c.nResync := by simp only [CoreState.decodeFrame]

end

theorem State.nextInput_cons (s : State) {h : HostInput} {rest : List HostInput} (hi : s.inputs = h :: rest) :
    s.nextInput = h := by simp [State.nextInput, hi]

theorem State.nextInput_nil (s : State) (hi : s.inputs = []) : s.nextInput = HostInput.idle := by
  simp [State.nextInput, hi]

end Sys2Proof.Machine
end

