-- ==== Sys2Proof/Laws/Ops.lean ====
section
/-! SUPPORT. What the shared operations can do, once each: Read of the Byte Source, the counters' increments, and a step
as its two alternatives. -/

namespace Sys2Proof.Machine

/-! ### Read -/

theorem State.offered_length_le (s : State) (n : Nat) : (s.offered n).length ≤ n := by
  simp only [State.offered, List.length_take]; omega

/-- A Byte Source that keeps its contract offers the `n` oldest bytes. -/
theorem State.offered_eq_take {s : State} {n : Nat} (hd : s.delivers n) : s.offered n = s.q.take n := by
  unfold State.offered
  cases hc : s.deliver with
  | none => simp [List.take_take]
  | some k =>
    have := hd k hc
    simp only [Option.getD_some, List.take_take]
    congr 1; omega

/-- `Read(n)` with `n` bytes available and the contract kept (R61). -/
theorem State.read_eq_ok {s : State} {n : Nat} (ha : n ≤ s.avail) (hd : s.delivers n) :
    ∃ bytes : Vector Byte n, bytes.toList = s.q.take n ∧ s.read n = .ok (bytes, s.consume n) := by
  have hl : (s.offered n).length = n := by
    rw [State.offered_eq_take hd, List.length_take]; unfold State.avail at ha; omega
  refine ⟨⟨(s.offered n).toArray, by simpa using hl⟩, ?_, ?_⟩
  · simp [Vector.toList, State.offered_eq_take hd]
  · simp [State.read, hl]

/-- Everything a `Read(n)` that returns can be: the `n` oldest bytes, consumed (R61). -/
theorem State.read_ok {s t : State} {n : Nat} {bytes : Vector Byte n} (h : s.read n = .ok (bytes, t)) :
    n ≤ s.avail ∧ bytes.toList = s.q.take n ∧ t = s.consume n := by
  unfold State.read at h
  split at h
  next hl =>
    cases h
    have ho : s.offered n = s.q.take n := by
      have hl' := hl
      simp only [State.offered, List.length_take, List.take_take] at hl' ⊢
      congr 1; omega
    refine ⟨?_, ?_, rfl⟩
    · have := hl
      simp only [State.offered, List.length_take] at this
      unfold State.avail; omega
    · simp [Vector.toList, ho]
  next => cases h

/-- Everything a `Read(n)` that fails can be: a short read (R243). -/
theorem State.read_error {s : State} {n : Nat} {f : Fault} (h : s.read n = .error f) :
    f = .hostFault (.shortRead n (s.offered n).length) ∧ (s.offered n).length < n := by
  unfold State.read at h
  split at h
  next => cases h
  next hl =>
    have := s.offered_length_le n
    exact ⟨by simpa using h.symm, by omega⟩

/-! ### Increments -/

theorem oosNext_val {oos : Fin (Config.oosMax + 1)} (h : oos.val < 11) : (oosNext oos).val = oos.val + 1 := by
  have h' : oos.val < Config.oosMax := h
  simp only [oosNext, h', dite_true]

theorem oosNext_of_le {oos : Fin (Config.oosMax + 1)} (h : 10 ≤ oos.val) : oosNext oos = 11 := by
  apply Fin.ext
  unfold oosNext
  split
  · exact Nat.le_antisymm ‹oos.val < Config.oosMax› (Nat.succ_le_succ h)
  · rfl

/-- The cursor's range as a number, for arithmetic (R35). -/
theorem CoreState.cur_lt (c : CoreState) : c.cur.val < 25 := c.cur.isLt

/-- The run counter's range as a number, for arithmetic (R37). -/
theorem CoreState.oos_lt (c : CoreState) : c.oos.val < 12 := c.oos.isLt

theorem curNext_val {cur : Fin Config.cursorValues} (h : cur.val < 24) : (curNext cur).val = cur.val + 1 := by
  have h' : cur.val < Config.lastPos := h
  simp only [curNext, h', dite_true]

/-! ### A step -/

theorem step_reset {s : State} (h : s.nextInput.rst = true) : step s = .next s.present.takeReset := by
  simp [step, h]

theorem step_request {s : State} (h : s.nextInput.rst = false) : step s = exec s.nextInput.instr s.present := by
  simp [step, h]

/-- The instruction of a step is a request, never a poll case (R100). -/
theorem decode_isRequest (w : RequestWord) : (decode w).isRequest = true := by
  revert w; decide

theorem HostInput.instr_isRequest (h : HostInput) : h.instr.isRequest = true := by
  unfold HostInput.instr
  split
  · rfl
  · exact decode_isRequest _

end Sys2Proof.Machine
end

