-- ==== Sys2Proof/Laws/Packing.lean ====
section
/-! SUPPORT. Little-endian packing bit by bit, and with it the payload of a frame (20_memory.md R64); the slots a
frame decodes to (42_decode.md R180). -/

namespace Sys2Proof.Machine

@[simp] theorem packLE_nil {w : Nat} : packLE ([] : List (BitVec w)) = 0 := rfl

@[simp] theorem packLE_cons {w : Nat} (d : BitVec w) (l : List (BitVec w)) :
    packLE (d :: l) = d.toNat + 2 ^ w * packLE l := rfl

theorem packLE_lt {w : Nat} (l : List (BitVec w)) : packLE l < 2 ^ (w * l.length) := by
  induction l with
  | nil => simp
  | cons d l ih =>
    have hd := d.isLt
    have : 2 ^ (w * (l.length + 1)) = 2 ^ w * 2 ^ (w * l.length) := by rw [← Nat.pow_add]; congr 1; ring
    simp only [packLE_cons, List.length_cons, this]
    calc d.toNat + 2 ^ w * packLE l < 2 ^ w * (packLE l + 1) := by rw [Nat.mul_add]; omega
      _ ≤ 2 ^ w * 2 ^ (w * l.length) := Nat.mul_le_mul_left _ ih

/-- Bit `i` of a packed list is bit `i % w` of digit `i / w`. -/
theorem packLE_testBit {w : Nat} (hw : 0 < w) (l : List (BitVec w)) (i : Nat) :
    (packLE l).testBit i = (l.getD (i / w) 0).getLsbD (i % w) := by
  induction l generalizing i with
  | nil => simp
  | cons d l ih =>
    rw [packLE_cons, Nat.add_comm, Nat.testBit_two_pow_mul_add _ d.isLt]
    split
    · next h => simp [Nat.div_eq_of_lt h, Nat.mod_eq_of_lt h, BitVec.getLsbD]
    · next h =>
      have h' : w ≤ i := by omega
      obtain ⟨j, rfl⟩ := Nat.exists_eq_add_of_le h'
      rw [ih]
      simp [Nat.add_div_left _ hw]

/-! ### The slots a frame decodes to -/

theorem Frame.channels_analog (F : Frame) {k : Nat} (h : k < 16) :
    F.channels[k]'(Nat.lt_trans h (by decide)) = F.analog k := by
  simp [Frame.channels, h]

theorem Frame.channels_sixteen (F : Frame) : F.channels[16] = digital17 F.flags := by simp [Frame.channels]

theorem Frame.channels_seventeen (F : Frame) : F.channels[17] = digital18 F.flags := by simp [Frame.channels]

end Sys2Proof.Machine
end

