-- ==== Sys2Proof/Laws/PerInstr.lean ====
section
/-! SUPPORT. A family of statements about the instruction as syntax: its code matches its own row of the opcode table
(30_encoding.md R91, R99). -/

namespace Sys2Proof.Laws.EncodedAsItsRow

/-- The `match` and `mask` columns of a row of spec/opcode_table.json. -/
def row : Instr → Code × Nat
  | .nop => (.request 0x00#8, 0xE0)
  | .poll => (.request 0x20#8, 0xE0)
  | .rdChannels => (.request 0x40#8, 0xE0)
  | .rdChannel _ => (.request 0x60#8, 0xE0)
  | .rdChannelErr _ => (.request 0x60#8, 0xE0)
  | .rdFailsafe => (.request 0x80#8, 0xE0)
  | .rdStats => (.request 0xA0#8, 0xE0)
  | .rdSync => (.request 0xC0#8, 0xE0)
  | .reserved => (.request 0xE0#8, 0xE0)
  | .pollUDefer => (.selector 0b000000#6, 0b111000)
  | .pollUStart => (.selector 0b001010#6, 0b111010)
  | .pollUDiscard => (.selector 0b001000#6, 0b111010)
  | .pollSDefer => (.selector 0b010000#6, 0b111000)
  | .pollSAdvance => (.selector 0b011000#6, 0b111100)
  | .pollSEndOk => (.selector 0b011110#6, 0b111110)
  | .pollSEndFail => (.selector 0b011100#6, 0b111110)
  | .pollYDefer => (.selector 0b100000#6, 0b111000)
  | .pollYValid => (.selector 0b101010#6, 0b111010)
  | .pollYInvalid => (.selector 0b101000#6, 0b111011)
  | .pollYResync => (.selector 0b101001#6, 0b111011)

/-- A code under a mask. -/
def masked (mask : Nat) : Code → Code
  | .request w => .request (w &&& BitVec.ofNat 8 mask)
  | .selector sel => .selector (sel &&& BitVec.ofNat 6 mask)

/-- The instruction's code, under its row's mask, is its row's match. -/
def Statement (i : Instr) : Prop := masked (row i).2 (encode i) = (row i).1

theorem nop : Statement .nop := by unfold Statement; decide
theorem poll : Statement .poll := by unfold Statement; decide
theorem rdChannels : Statement .rdChannels := by unfold Statement; decide
theorem rdChannel (idx : ChannelIndex) : Statement (.rdChannel idx) := by unfold Statement; revert idx; decide
theorem rdChannelErr (idx : ChannelIndex) : Statement (.rdChannelErr idx) := by unfold Statement; revert idx; decide
theorem rdFailsafe : Statement .rdFailsafe := by unfold Statement; decide
theorem rdStats : Statement .rdStats := by unfold Statement; decide
theorem rdSync : Statement .rdSync := by unfold Statement; decide
theorem reserved : Statement .reserved := by unfold Statement; decide
theorem pollUDefer : Statement .pollUDefer := by unfold Statement; decide
theorem pollUStart : Statement .pollUStart := by unfold Statement; decide
theorem pollUDiscard : Statement .pollUDiscard := by unfold Statement; decide
theorem pollSDefer : Statement .pollSDefer := by unfold Statement; decide
theorem pollSAdvance : Statement .pollSAdvance := by unfold Statement; decide
theorem pollSEndOk : Statement .pollSEndOk := by unfold Statement; decide
theorem pollSEndFail : Statement .pollSEndFail := by unfold Statement; decide
theorem pollYDefer : Statement .pollYDefer := by unfold Statement; decide
theorem pollYValid : Statement .pollYValid := by unfold Statement; decide
theorem pollYInvalid : Statement .pollYInvalid := by unfold Statement; decide
theorem pollYResync : Statement .pollYResync := by unfold Statement; decide

end Sys2Proof.Laws.EncodedAsItsRow
end

