-- ==== Sys2Proof/Laws/Poll.lean ====
section
/-! SUPPORT. What a poll case and POLL can do, once for the two shapes of a case, and what every other request does. -/

namespace Sys2Proof.Machine

/-- A poll case answers a next state only when the selector picks it and no read is short. -/
theorem whenSelected_next {c : PollCase} {s t : State} {a : Answer} (h : whenSelected c s a = .next t) :
    s.shortRead = none ∧ s.pollCase = c ∧ a = .next t := by
  unfold whenSelected at h
  split at h
  · cases h
  · next hs =>
    split at h
    · next hc => exact ⟨hs, hc, h⟩
    · cases h

theorem whenSelected_eq {c : PollCase} {s : State} {a : Answer} (hs : s.shortRead = none) (hc : s.pollCase = c) :
    whenSelected c s a = a := by simp [whenSelected, hs, hc]

/-- What a selected deferral does. -/
theorem deferCase_eq {c : PollCase} {s : State} (hs : s.shortRead = none) (hc : s.pollCase = c) :
    deferCase c s = .next (s.respond .ok (.consumed 0)) := whenSelected_eq hs hc

/-- What a selected reading case does with the bytes its Read returns. -/
theorem readCase_eq {c : PollCase} {n : Nat} {effect : Vector Byte n → CoreState → CoreState} {s : State}
    {bytes : Vector Byte n} (hs : s.shortRead = none) (hc : s.pollCase = c) (hr : s.read n = .ok (bytes, s.consume n)) :
    readCase c n effect s =
      .next (((s.consume n).setCore (effect bytes s.core)).respond .ok (.consumed (BitVec.ofNat 5 n))) := by
  rw [readCase, whenSelected_eq hs hc, hr]

/-- Everything a deferral can do. -/
theorem deferCase_next {c : PollCase} {s t : State} (h : deferCase c s = .next t) :
    s.pollCase = c ∧ t = s.respond .ok (.consumed 0) := by
  obtain ⟨-, hc, ha⟩ := whenSelected_next h
  exact ⟨hc, by simpa using ha.symm⟩

/-- Everything a reading case can do. -/
theorem readCase_next {c : PollCase} {n : Nat} {effect : Vector Byte n → CoreState → CoreState} {s t : State}
    (h : readCase c n effect s = .next t) :
    s.pollCase = c ∧ n ≤ s.avail ∧ ∃ bytes : Vector Byte n, bytes.toList = s.q.take n ∧
      t = (((s.consume n).setCore (effect bytes s.core)).respond .ok (.consumed (BitVec.ofNat 5 n))) := by
  obtain ⟨-, hc, ha⟩ := whenSelected_next h
  split at ha
  · next bytes s' hr =>
    obtain ⟨hn, hb, rfl⟩ := State.read_ok hr
    exact ⟨hc, hn, bytes, hb, by simpa using ha.symm⟩
  · cases ha

/-- The case a state selects, as a decision over the selector's parts (R98, R99). -/
theorem State.pollCase_eq (s : State) : s.pollCase =
    match s.core.sync with
    | .unsynced => if s.enough = false then .uDefer else if s.markerMatch then .uStart else .uDiscard
    | .seekingEnd =>
      if s.enough = false then .sDefer else if s.atLast = false then .sAdvance
      else if s.markerMatch then .sEndOk else .sEndFail
    | .synced =>
      if s.enough = false then .yDefer else if s.markerMatch then .yValid
      else if s.overThreshold then .yResync else .yInvalid := by
  have key : ∀ (x : SyncState) (a l m t : Bool), (x ≠ .seekingEnd → l = false) → (l = false → x = .seekingEnd → m = false) →
      selectCase (assembleSelector x.code a l m t) = some (match x with
        | .unsynced => if a = false then .uDefer else if m then .uStart else .uDiscard
        | .seekingEnd => if a = false then .sDefer else if l = false then .sAdvance else if m then .sEndOk else .sEndFail
        | .synced => if a = false then .yDefer else if m then .yValid else if t then .yResync else .yInvalid) := by
    intro x; cases x <;> decide
  have hl : s.core.sync ≠ .seekingEnd → s.atLast = false := fun h => by simp [State.atLast, h]
  have hm : s.atLast = false → s.core.sync = .seekingEnd → s.markerMatch = false := fun h hs => by
    unfold State.markerMatch
    rw [hs]
    dsimp only
    split <;> simp [h]
  apply Option.some_injective
  rw [State.pollCase, Option.some_get]
  exact key _ _ _ _ _ hl hm

/-- POLL is the row of the case its selector picks (R99, R120). -/
theorem execPoll_eq_case (s : State) : execPoll s = exec s.pollCase.instr s := by
  unfold execPoll
  cases s.pollCase <;> rfl

/-- A case row answers a next state only where the selector picks it. -/
theorem exec_case_selected {c : PollCase} {s t : State} (h : exec c.instr s = .next t) : s.pollCase = c := by
  cases c with
  | uDefer => exact (deferCase_next (s := s) h).1
  | uStart => unfold PollCase.instr exec execPollUStart at h; exact (readCase_next h).1
  | uDiscard => unfold PollCase.instr exec execPollUDiscard at h; exact (readCase_next h).1
  | sDefer => exact (deferCase_next (s := s) h).1
  | sAdvance => unfold PollCase.instr exec execPollSAdvance at h; exact (readCase_next h).1
  | sEndOk => unfold PollCase.instr exec execPollSEndOk at h; exact (readCase_next h).1
  | sEndFail => unfold PollCase.instr exec execPollSEndFail at h; exact (readCase_next h).1
  | yDefer => exact (deferCase_next (s := s) h).1
  | yValid => unfold PollCase.instr exec execPollYValid at h; exact (readCase_next h).1
  | yInvalid => unfold PollCase.instr exec execPollYInvalid at h; exact (readCase_next h).1
  | yResync => unfold PollCase.instr exec execPollYResync at h; exact (readCase_next h).1

/-- With the contract kept for this POLL's read, no read is short (R69). -/
theorem State.shortRead_eq_none {s : State} (hd : s.delivers s.core.sync.need) : s.shortRead = none := by
  unfold State.shortRead
  split
  · next he =>
    have ha : s.core.sync.need ≤ s.avail := by simpa [State.enough] using he
    obtain ⟨b, -, hr⟩ := State.read_eq_ok ha hd
    rw [hr]
  · rfl

/-- Everything a short read is (R243). -/
theorem State.shortRead_some {s : State} {f : Fault} (h : s.shortRead = some f) :
    s.core.sync.need ≤ s.avail ∧ (s.offered s.core.sync.need).length < s.core.sync.need ∧
      f = .hostFault (.shortRead s.core.sync.need (s.offered s.core.sync.need).length) := by
  unfold State.shortRead at h
  split at h
  · next he =>
    split at h
    · cases h
    · next f' hr =>
      obtain ⟨rfl, hl⟩ := State.read_error hr
      exact ⟨by simpa [State.enough] using he, hl, by simpa using h.symm⟩
  · cases h

/-- RD_CHANNEL answers the slot or INDEX_RANGE, and only responds. -/
theorem answerSlot_next {idx : ChannelIndex} {s t : State} (h : answerSlot idx s = .next t) :
    ∃ err data, t = s.respond err data := by
  unfold answerSlot at h
  split at h
  · exact ⟨_, _, by simpa [answerWith] using h.symm⟩
  · exact ⟨_, _, by simpa [State.respondError] using h.symm⟩

/-- A request other than POLL answers a next state that differs in the response alone (R218). -/
theorem exec_request_only_responds {i : Instr} (hi : i.isRequest = true) (hp : i ≠ .poll) (s : State) :
    ∃ err data, exec i s = .next (s.respond err data) := by
  have slot (idx) : ∃ err data, answerSlot idx s = .next (s.respond err data) := by
    unfold answerSlot
    split
    · exact ⟨_, _, rfl⟩
    · exact ⟨_, _, rfl⟩
  cases i with
  | rdChannel idx => exact slot idx
  | rdChannelErr idx => exact slot idx
  | poll => exact absurd rfl hp
  | nop => exact ⟨_, _, rfl⟩
  | rdChannels => exact ⟨_, _, rfl⟩
  | rdFailsafe => exact ⟨_, _, rfl⟩
  | rdStats => exact ⟨_, _, rfl⟩
  | rdSync => exact ⟨_, _, rfl⟩
  | reserved => exact ⟨_, _, rfl⟩
  | pollUDefer => cases hi
  | pollUStart => cases hi
  | pollUDiscard => cases hi
  | pollSDefer => cases hi
  | pollSAdvance => cases hi
  | pollSEndOk => cases hi
  | pollSEndFail => cases hi
  | pollYDefer => cases hi
  | pollYValid => cases hi
  | pollYInvalid => cases hi
  | pollYResync => cases hi

end Sys2Proof.Machine
end

