-- ==== Sys2Proof/Tests/Slice0.lean ====
section
/-! SUPPORT. Tests of the model and, for every statement with hypotheses, a witness that meets them. Expected results come
from the spec's rules and tables (the rule or the section of 95_test_vectors.md is named), not from the model. -/

open Sys2Proof Sys2Proof.Machine Sys2Proof.Claims

namespace Sys2Proof.Tests

/-! ### Well-formedness -/

theorem test_wf_refuses_channel_18 : wellFormed (.rdChannel 18) = false := by decide
theorem test_wf_refuses_error_row_17 : wellFormed (.rdChannelErr 17) = false := by decide
theorem test_wf_accepts_boundary : wellFormed (.rdChannel 17) = true ∧ wellFormed (.rdChannelErr 18) = true := by decide

/-! ### Decoding, words written out from R90, R91 and selectors from R99 -/

theorem test_decode_nop : decode 0b00000000#8 = .nop ∧ decode 0b00011111#8 = .nop := by decide
theorem test_decode_poll : decode 0b00100000#8 = .poll ∧ decode 0b00110101#8 = .poll := by decide
theorem test_decode_rdChannels : decode 0b01000000#8 = .rdChannels := by decide
theorem test_decode_rdChannel : decode 0b01110001#8 = .rdChannel 17 := by decide
theorem test_decode_rdChannelErr : decode 0b01110010#8 = .rdChannelErr 18 := by decide
theorem test_decode_rdFailsafe : decode 0b10000000#8 = .rdFailsafe := by decide
theorem test_decode_rdStats : decode 0b10100000#8 = .rdStats := by decide
theorem test_decode_rdSync : decode 0b11000000#8 = .rdSync := by decide
theorem test_decode_reserved : decode 0b11111111#8 = .reserved := by decide
theorem test_select_unsynced :
    [0b000000#6, 0b001010#6, 0b001000#6].map selectCase = [some .uDefer, some .uStart, some .uDiscard] := by decide
theorem test_select_seeking :
    [0b010000#6, 0b011000#6, 0b011110#6, 0b011100#6].map selectCase =
      [some .sDefer, some .sAdvance, some .sEndOk, some .sEndFail] := by decide
theorem test_select_synced :
    [0b100000#6, 0b101010#6, 0b101000#6, 0b101001#6].map selectCase =
      [some .yDefer, some .yValid, some .yInvalid, some .yResync] := by decide
theorem test_select_no_state_three : selectCase 0b110000#6 = none := by decide
theorem test_empty_bytes_refused : decodeBytes [] = .error .noRequestWord := by rfl
theorem test_table_word : decodeTableWord 8 0x71 = some (.rdChannel 17) := by decide

/-! ### States to test on -/

/-- A state of the synchronizer with a queue; everything else as after reset. -/
def at_ (sync : SyncState) (cur : Fin 25) (oos : Fin 12) (q : List Byte) : State :=
  { State.reset with core := { CoreState.reset with sync := sync, cur := cur, oos := oos }, q := q }

/-- The frame G of 95_test_vectors.md section 2.3, channel k = 100 k + 1, as the spec writes its bytes. -/
def frameG : Frame := #v[0x0F, 0x01, 0x28, 0x43, 0x32, 0x5A, 0x12, 0x99, 0xFA, 0x64, 0xA9, 0x57, 0x21, 0x2B, 0x5C, 0xFA,
  0x9A, 0x18, 0xCB, 0x8A, 0xE6, 0xB5, 0xBB, 0x00, 0x00]

/-- The frame B of section 2.3: G with byte 24 = FF. -/
def frameB : Frame := #v[0x0F, 0x01, 0x28, 0x43, 0x32, 0x5A, 0x12, 0x99, 0xFA, 0x64, 0xA9, 0x57, 0x21, 0x2B, 0x5C, 0xFA,
  0x9A, 0x18, 0xCB, 0x8A, 0xE6, 0xB5, 0xBB, 0x00, 0xFF]

/-- The next state of an answer. -/
def after : Answer → Option State
  | .next t => some t
  | .fault _ => none
  | .refused _ => none

/-- The synchronizer, queue and response after an instruction. -/
def brief (i : Instr) (s : State) : Option (SyncState × Nat × Nat × List Byte × Option Response) :=
  (after (exec i s)).map fun t => (t.core.sync, t.core.cur.val, t.core.oos.val, t.q, t.rsp)

/-- The counters after an instruction. -/
def counts (i : Instr) (s : State) : Option (Nat × Nat × Nat) :=
  (after (exec i s)).map fun t => (t.core.nValid, t.core.nLost, t.core.nResync)

/-! ### The examples of R120 to R128 and the table of section 2.2 -/

theorem test_pollUDefer : brief .pollUDefer (at_ .unsynced 0 0 []) =
    some (.unsynced, 0, 0, [], some ⟨.ok, .consumed 0⟩) := by decide
theorem test_pollUStart : brief .pollUStart (at_ .unsynced 0 11 [0x0F, 0x00]) =
    some (.seekingEnd, 1, 11, [0x00], some ⟨.ok, .consumed 1⟩) := by decide
theorem test_pollUDiscard : brief .pollUDiscard (at_ .unsynced 0 0 [0x00, 0x0F]) =
    some (.unsynced, 0, 0, [0x0F], some ⟨.ok, .consumed 1⟩) := by decide
theorem test_pollSDefer : brief .pollSDefer (at_ .seekingEnd 7 0 []) =
    some (.seekingEnd, 7, 0, [], some ⟨.ok, .consumed 0⟩) := by decide
theorem test_pollSAdvance : brief .pollSAdvance (at_ .seekingEnd 23 0 [0x0F, 0x00]) =
    some (.seekingEnd, 24, 0, [0x00], some ⟨.ok, .consumed 1⟩) := by decide
theorem test_pollSEndOk : brief .pollSEndOk (at_ .seekingEnd 24 11 [0x00, 0xAA]) =
    some (.synced, 0, 0, [0xAA], some ⟨.ok, .consumed 1⟩) := by decide
theorem test_pollSEndFail : brief .pollSEndFail (at_ .seekingEnd 24 0 [0x0F, 0x0F]) =
    some (.unsynced, 0, 0, [0x0F], some ⟨.ok, .consumed 1⟩) := by decide
theorem test_poll_start : brief .poll (at_ .unsynced 0 0 [0x0F]) =
    some (.seekingEnd, 1, 0, [], some ⟨.ok, .consumed 1⟩) := by decide

/-! ### The table of section 2.3 -/

theorem test_pollYDefer : brief .pollYDefer (at_ .synced 0 3 (frameG.toList.take 24)) =
    some (.synced, 0, 3, frameG.toList.take 24, some ⟨.ok, .consumed 0⟩) := by decide
theorem test_pollYValid_counts : counts .pollYValid (at_ .synced 0 7 frameG.toList) = some (1, 0, 0) := by decide
theorem test_pollYValid_channels :
    ((after (exec .pollYValid (at_ .synced 0 7 frameG.toList))).map fun t => t.core.ch.toList) =
      some [1, 101, 201, 301, 401, 501, 601, 701, 801, 901, 1001, 1101, 1201, 1301, 1401, 1501, 0, 0] := by decide
theorem test_pollYInvalid : brief .pollYInvalid (at_ .synced 0 9 frameB.toList) =
    some (.synced, 0, 10, [], some ⟨.ok, .consumed 25⟩) := by decide
theorem test_pollYResync : brief .pollYResync (at_ .synced 0 10 frameB.toList) =
    some (.unsynced, 0, 11, [], some ⟨.ok, .consumed 25⟩) := by decide
theorem test_pollYResync_counts : counts .pollYResync (at_ .synced 0 10 frameB.toList) = some (0, 1, 1) := by decide
theorem test_poll_short_read :
    exec .poll { at_ .synced 0 0 (List.replicate 30 0) with deliver := some 20 } =
      .fault (.hostFault (.shortRead 25 20)) := by rfl

/-! ### Decoder vectors of section 2.4 -/

/-- D3: payload 01, 02, ..., 16 hex. -/
theorem test_decode_arbitrary_payload :
    (Frame.channels (Vector.ofFn fun j : Fin 25 =>
      if j.val = 0 then 0x0F#8 else if j.val < 23 then BitVec.ofNat 8 j.val else 0#8)).toList =
      [513, 96, 1040, 770, 112, 528, 642, 88, 1292, 449, 60, 136, 289, 38, 1349, 176, 0, 0] := by decide
/-- D5: the 176th bit. -/
theorem test_decode_top_bit :
    (Frame.analog (#v[0x0F, 0, 0, 0, 0, 0, 0, 0, 0, 0, 0, 0, 0, 0, 0, 0, 0, 0, 0, 0, 0, 0, 0x80, 0, 0]) 15) = 1024 := by decide
/-- D4: byte 23. -/
theorem test_flag_byte :
    ([0x00#8, 0x01#8, 0x02#8, 0x04#8, 0x07#8, 0x08#8, 0x0C#8, 0xF4#8].map fun g => (digital17 g, digital18 g, failsafeOf g)) =
      [(0, 0, .ok), (1, 0, .ok), (0, 1, .ok), (0, 0, .signalLost), (1, 1, .signalLost), (0, 0, .failsafe),
        (0, 0, .failsafe), (0, 0, .signalLost)] := by decide
/-- Section 2.3: Pack of 100 k + 1 is G. -/
theorem test_pack_G : pack (Vector.ofFn fun k => BitVec.ofNat 11 (100 * k.val + 1)) 0 = frameG := by decide

/-! ### Accessors, reset, ports, notation -/

theorem test_rdChannel_error : brief (.rdChannelErr 31) State.reset =
    some (.unsynced, 0, 0, [], some ⟨.indexRange, .zero⟩) := by decide
theorem test_reserved : brief .reserved State.reset = some (.unsynced, 0, 0, [], some ⟨.illegalOp, .zero⟩) := by decide
theorem test_statusWords : statusWord .seekingEnd 10 0 = 0x029#11 ∧ statusWord .synced 0 0 = 0x002#11 ∧
    statusWord .unsynced 0 11 = 0x580#11 ∧ statusWord .seekingEnd 24 11 = 0x5E1#11 := by decide
/-- R271, R272: reset wins over the POLL of the same step and leaves the queue. -/
theorem test_reset_wins :
    ((after (step { at_ .synced 0 5 frameG.toList with
      inputs := [{ HostInput.request 0x20#8 with rst := true }] })).map fun t => (t.core, t.q, t.rsp)) =
      some (CoreState.reset, frameG.toList, none) := by decide
theorem test_bs_rd_n : ((after (exec .poll (at_ .synced 0 0 frameG.toList))).map State.bsRdN) = some 25 := by decide
/-- P1's first lines (section 3): the bytes of FEED go before the first POLL after the RESET. -/
theorem test_assemble :
    assemble [.reset, .feed [0xAA, 0x0F], .pollTimes 2, .request .rdSync] =
      [{ HostInput.idle with rst := true }, { HostInput.request 0x20#8 with feed := [0xAA, 0x0F] },
        HostInput.request 0x20#8, HostInput.request 0xC0#8] := by decide
theorem test_withFetchWord_runs :
    ((after (step (State.reset.withFetchWord 8 0xA0))).map fun t => t.rsp) = some (some ⟨.ok, .stats 0 0 0⟩) := by decide

/-! ### Witnesses: each statement's hypotheses can be met, at the ends of each clause's range -/

theorem witness_DecodeFollowsOpcodeField :
    [0x00#8, 0x1F#8, 0x20#8, 0x3F#8, 0x40#8, 0x5F#8, 0x60#8, 0x7F#8, 0x80#8, 0x9F#8, 0xA0#8, 0xBF#8, 0xC0#8, 0xDF#8, 0xE0#8,
      0xFF#8].map (fun w : RequestWord => w.toNat / 32) = [0, 0, 1, 1, 2, 2, 3, 3, 4, 4, 5, 5, 6, 6, 7, 7] ∧
    (0x71#8 : RequestWord).toNat % 32 < 18 ∧ 18 ≤ (0x72#8 : RequestWord).toNat % 32 := by decide
theorem witness_IndexIgnoredOutsideRdChannel :
    (State.reset.withFetchWord 8 0x35).inputs = HostInput.request 0x35#8 :: [] ∧
    (HostInput.request 0x35#8).req = some 0x35#8 ∧ (0x35#8 : RequestWord).toNat / 32 ≠ 3 ∧
    (State.reset.withFetchWord 8 0x7F).inputs = HostInput.request 0x7F#8 :: [] ∧
    (HostInput.request 0x7F#8).req = some 0x7F#8 ∧ (0x7F#8 : RequestWord).toNat / 32 = 3 := by decide
theorem witness_DecodeEncodeRoundTrip :
    WellFormed (.rdChannel 17) ∧ (Instr.rdChannel 17).isRequest = true ∧ WellFormed (.rdChannelErr 18) ∧
    WellFormed .pollYResync ∧ (0x7F#8 : RequestWord).toNat / 32 = 3 ∧
    encode (.rdChannel 17) = encode (.rdChannel 17) := by decide
theorem witness_SelectorBitsFollowState :
    ((at_ .unsynced 0 0 [0x0F]).core.sync = .unsynced ∧ (at_ .unsynced 0 0 [0x0F]).q = 0x0F#8 :: []) ∧
    ((at_ .seekingEnd 24 0 [0x00]).core.sync = .seekingEnd ∧ (at_ .seekingEnd 24 0 [0x00]).q = 0x00#8 :: []) ∧
    ((at_ .synced 0 10 frameG.toList).core.sync = .synced ∧ (at_ .synced 0 10 frameG.toList).q = frameG.toList ++ []) ∧
    (at_ .unsynced 0 0 []).selector.getLsbD 3 = false ∧
    (at_ .unsynced 0 0 [0x0F]).delivers 1 ∧ (at_ .seekingEnd 24 0 [0x00]).delivers 1 ∧
    (at_ .synced 0 10 frameG.toList).delivers 25 :=
  ⟨by decide, by decide, by decide, by decide, nofun, nofun, nofun⟩
theorem witness_PollRowsMatchTheirConditions :
    (at_ .synced 0 10 frameB.toList).delivers (at_ .synced 0 10 frameB.toList).core.sync.need ∧
    [at_ .unsynced 0 0 [], at_ .unsynced 0 0 [0x0F], at_ .unsynced 0 0 [0x0E], at_ .seekingEnd 1 0 [],
      at_ .seekingEnd 23 0 [0x00], at_ .seekingEnd 24 0 [0x00], at_ .seekingEnd 24 0 [0x01],
      at_ .synced 0 0 (frameG.toList.take 24), at_ .synced 0 10 frameG.toList, at_ .synced 0 9 frameB.toList,
      at_ .synced 0 10 frameB.toList].map State.pollCase =
    [.uDefer, .uStart, .uDiscard, .sDefer, .sAdvance, .sEndOk, .sEndFail, .yDefer, .yValid, .yInvalid, .yResync] :=
  ⟨nofun, by decide⟩
theorem witness_StepRunsDecodedRequest :
    (State.reset.withFetchWord 8 0x20).inputs = HostInput.request 0x20#8 :: [] ∧
    (HostInput.request 0x20#8).rst = false ∧ (HostInput.request 0x20#8).req = some 0x20#8 := by decide
theorem witness_StepWithoutRequestIsNop :
    ({ State.reset with inputs := [HostInput.idle] } : State).inputs = HostInput.idle :: [] ∧ HostInput.idle.rst = false ∧
    HostInput.idle.req = none ∧ State.reset.inputs = [] := by decide
theorem witness_ResetStepWinsAndKeepsQueue :
    ({ State.reset with inputs := [{ HostInput.request 0x20#8 with rst := true, feed := [0x0F] }] } : State).inputs =
      { HostInput.request 0x20#8 with rst := true, feed := [0x0F] } :: [] ∧
    ({ HostInput.request 0x20#8 with rst := true, feed := [0x0F] } : HostInput).rst = true := by decide
theorem witness_PollUDefer : (at_ .unsynced 0 11 []).core.sync = .unsynced ∧ (at_ .unsynced 0 11 []).q = [] := by decide
theorem witness_PollUStart : (at_ .unsynced 0 11 [0x0F, 0xAA]).core.sync = .unsynced ∧
    (at_ .unsynced 0 11 [0x0F, 0xAA]).q = 0x0F#8 :: [0xAA] ∧ (at_ .unsynced 0 11 [0x0F, 0xAA]).delivers 1 :=
  ⟨by decide, by decide, nofun⟩
theorem witness_PollUDiscard : (at_ .unsynced 0 0 [0x0E]).core.sync = .unsynced ∧
    (at_ .unsynced 0 0 [0x0E]).q = 0x0E#8 :: [] ∧ (0x0E#8 : Byte) ≠ 0x0F#8 ∧ (at_ .unsynced 0 0 [0x0E]).delivers 1 :=
  ⟨by decide, by decide, by decide, nofun⟩
theorem witness_PollSDefer : (at_ .seekingEnd 24 0 []).core.sync = .seekingEnd ∧ (at_ .seekingEnd 24 0 []).q = [] := by decide
theorem witness_PollSAdvance : (at_ .seekingEnd 23 0 [0x0F]).core.sync = .seekingEnd ∧
    (24 : Fin 25).val = (at_ .seekingEnd 23 0 [0x0F]).core.cur.val + 1 ∧
    (at_ .seekingEnd 23 0 [0x0F]).q = 0x0F#8 :: [] ∧ (at_ .seekingEnd 23 0 [0x0F]).delivers 1 :=
  ⟨by decide, by decide, by decide, nofun⟩
theorem witness_PollSEndOk : (at_ .seekingEnd 24 11 [0x00]).core.sync = .seekingEnd ∧
    (at_ .seekingEnd 24 11 [0x00]).core.cur.val = 24 ∧ (at_ .seekingEnd 24 11 [0x00]).q = 0x00#8 :: [] ∧
    (at_ .seekingEnd 24 11 [0x00]).delivers 1 := ⟨by decide, by decide, by decide, nofun⟩
theorem witness_PollSEndFail : (at_ .seekingEnd 24 0 [0x0F]).core.sync = .seekingEnd ∧
    (at_ .seekingEnd 24 0 [0x0F]).core.cur.val = 24 ∧ (at_ .seekingEnd 24 0 [0x0F]).q = 0x0F#8 :: [] ∧
    (0x0F#8 : Byte) ≠ 0x00#8 ∧ (at_ .seekingEnd 24 0 [0x0F]).delivers 1 :=
  ⟨by decide, by decide, by decide, by decide, nofun⟩
theorem witness_PollYDefer : (at_ .synced 0 3 (frameG.toList.take 24)).core.sync = .synced ∧
    (at_ .synced 0 3 (frameG.toList.take 24)).q.length < 25 := by decide
/-- Also of DecodingTwiceIsIdempotent and SyncedFrameIsCountedOnce. -/
theorem witness_PollYValid : (at_ .synced 0 7 (frameG.toList ++ (frameG.toList ++ [0x0F]))).core.sync = .synced ∧
    (at_ .synced 0 7 (frameG.toList ++ (frameG.toList ++ [0x0F]))).q = frameG.toList ++ (frameG.toList ++ [0x0F]) ∧
    MarkersHold frameG ∧ (at_ .synced 0 7 (frameG.toList ++ (frameG.toList ++ [0x0F]))).delivers 25 :=
  ⟨by decide, by decide, by decide, nofun⟩
theorem witness_PollYInvalid : (at_ .synced 0 9 frameB.toList).core.sync = .synced ∧
    (at_ .synced 0 9 frameB.toList).q = frameB.toList ++ [] ∧ ¬ MarkersHold frameB ∧
    (at_ .synced 0 9 frameB.toList).core.oos.val + 1 ≤ 10 ∧
    (10 : Fin 12).val = (at_ .synced 0 9 frameB.toList).core.oos.val + 1 ∧ (at_ .synced 0 9 frameB.toList).delivers 25 :=
  ⟨by decide, by decide, by decide, by decide, by decide, nofun⟩
/-- Also the other clause of SyncedFrameIsCountedOnce. -/
theorem witness_PollYResync : (at_ .synced 0 10 frameB.toList).core.sync = .synced ∧
    (at_ .synced 0 10 frameB.toList).q = frameB.toList ++ [] ∧ ¬ MarkersHold frameB ∧
    (at_ .synced 0 10 frameB.toList).core.oos = 10 ∧ (at_ .synced 0 10 frameB.toList).delivers 25 :=
  ⟨by decide, by decide, by decide, by decide, nofun⟩
theorem witness_PollFollowsPseudocode :
    (0x20 ≤ (0x20#8 : RequestWord).toNat ∧ (0x3F#8 : RequestWord).toNat ≤ 0x3F) ∧
    ((at_ .synced 0 10 frameG.toList).core.sync = .synced → (at_ .synced 0 10 frameG.toList).core.oos.val ≤ 10) ∧
    { at_ .synced 0 10 frameG.toList with deliver := some 25 }.delivers 25 :=
  ⟨by decide, by decide, fun k h => by cases h; decide⟩
/-- Both clauses of PollRespondsBytesConsumed, and PollFrameByCase: a POLL that answers a next state in either part. -/
theorem witness_PollRespondsBytesConsumed :
    (∃ t, exec .poll (at_ .synced 0 0 frameG.toList) = .next t) ∧ (∃ t, exec .poll (at_ .unsynced 0 0 []) = .next t) ∧
    PollLike .poll ∧ PollLike .pollUStart :=
  ⟨⟨_, rfl⟩, ⟨_, rfl⟩, .inl rfl, .inr (by decide)⟩
theorem witness_ShortReadIsHostFault :
    { at_ .synced 0 0 (List.replicate 25 0) with deliver := some 24 }.core.sync.need ≤ 25 ∧
    { at_ .synced 0 0 (List.replicate 25 0) with deliver := some 24 }.q.length = 25 ∧
    { at_ .synced 0 0 (List.replicate 25 0) with deliver := some 24 }.deliver = some 24 ∧
    24 < { at_ .synced 0 0 (List.replicate 25 0) with deliver := some 24 }.core.sync.need := by decide
/-- A state before the first valid frame, and one after it (also of RdFailsafeReturnsStatus). -/
theorem witness_RdChannelsReturnsChannelSet :
    ZeroBeforeFirstFrame (at_ .synced 0 0 frameG.toList).core ∧ (at_ .synced 0 0 frameG.toList).core.nValid = 0 ∧
    ∃ t, step { at_ .synced 0 0 frameG.toList with inputs := polls 1 } = .next t ∧ t.core.nValid = 1 :=
  ⟨fun _ => ⟨rfl, rfl⟩, by decide, ⟨_, rfl, by decide⟩⟩
/-- R210 to R217: the first and last word of each range, and the index's ends. -/
theorem witness_RdChannelReturnsSlot : (0 : ChannelIndex).toNat < 18 ∧ (17 : ChannelIndex).toNat < 18 ∧
    (0x60 ≤ (0x60#8 : RequestWord).toNat ∧ (0x71#8 : RequestWord).toNat ≤ 0x71) ∧
    State.reset.core.Inv ∧ 16 ≤ (16 : ChannelIndex).toNat ∧ 16 ≤ (17 : ChannelIndex).toNat := by decide
theorem witness_RdChannelOutOfRangeIsError : 18 ≤ (18 : ChannelIndex).toNat ∧ 18 ≤ (31 : ChannelIndex).toNat ∧
    (0x72 ≤ (0x72#8 : RequestWord).toNat ∧ (0x7F#8 : RequestWord).toNat ≤ 0x7F) := by decide
theorem witness_accessor_words : (0x1F#8 : RequestWord).toNat ≤ 0x1F ∧ 0x40 ≤ (0x40#8 : RequestWord).toNat ∧
    (0x5F#8 : RequestWord).toNat ≤ 0x5F ∧ 0x80 ≤ (0x80#8 : RequestWord).toNat ∧ (0x9F#8 : RequestWord).toNat ≤ 0x9F ∧
    0xA0 ≤ (0xA0#8 : RequestWord).toNat ∧ (0xBF#8 : RequestWord).toNat ≤ 0xBF ∧ 0xC0 ≤ (0xC0#8 : RequestWord).toNat ∧
    (0xDF#8 : RequestWord).toNat ≤ 0xDF ∧ 0xE0 ≤ (0xE0#8 : RequestWord).toNat := by decide
/-- Also of ResponseDataLayouts: a count below `2 ^ STAT_W`, whatever STAT_W is. -/
theorem witness_RdStatsReturnsCounters : 1 < 2 ^ Config.statWidth := by
  unfold Config.statWidth
  exact Nat.one_lt_two_pow (Nat.succ_ne_zero _)
theorem witness_AccessorsAreRepeatable : Instr.nop.isRequest = true ∧ Instr.nop ≠ .poll ∧
    (Instr.rdChannelErr 31).isRequest = true ∧ Instr.rdChannelErr 31 ≠ .poll ∧
    18 ≤ (18 : ChannelIndex).toNat ∧ (17 : ChannelIndex).toNat < 18 := by decide
theorem witness_ErrorResponsesRecordNothing :
    (∃ t, exec (.rdChannelErr 18) State.reset = .next t ∧ t.rsp = some ⟨.indexRange, .zero⟩) ∧
    (∃ t, exec .reserved State.reset = .next t ∧ t.rsp = some ⟨.illegalOp, .zero⟩) :=
  ⟨⟨_, rfl, rfl⟩, ⟨_, rfl, rfl⟩⟩
/-- A POLL, and a case row the selector would not pick, on a short read. -/
theorem witness_OnlyPollFaults :
    (∃ f, exec .poll { at_ .synced 0 0 (List.replicate 30 0) with deliver := some 20 } = .fault f) ∧
    PollCase.uDefer.instr = .pollUDefer ∧
    { at_ .synced 0 0 (List.replicate 30 0) with deliver := some 20 }.core.sync.need ≤
      { at_ .synced 0 0 (List.replicate 30 0) with deliver := some 20 }.q.length ∧
    20 < { at_ .synced 0 0 (List.replicate 30 0) with deliver := some 20 }.core.sync.need :=
  ⟨⟨_, rfl⟩, by decide, by decide, by decide⟩
/-- A cap of exactly the bytes needed on a POLL, a cap of 0 on a NOP, and a cap of 0 on a POLL that starves. -/
theorem witness_StepCompletesUnderContract :
    ({ at_ .synced 0 0 frameG.toList with
      inputs := [{ HostInput.request 0x20#8 with deliver := some 25 }] }.present.delivers 25) ∧
    { at_ .synced 0 0 frameG.toList with
      inputs := [{ HostInput.request 0x00#8 with deliver := some 0 }] }.nextInput.instr ≠ .poll ∧
    ¬ { State.reset with inputs := [{ HostInput.request 0x20#8 with deliver := some 0 }] }.core.sync.need ≤
      { State.reset with inputs := [{ HostInput.request 0x20#8 with deliver := some 0 }] }.present.q.length :=
  ⟨fun k h => by cases h; decide, by decide, by decide⟩
theorem witness_StepKeepsCoreInvariant :
    (at_ .synced 0 10 frameB.toList).core.Inv ∧
    ∃ t, step { at_ .synced 0 10 frameB.toList with inputs := polls 1 } = .next t :=
  ⟨by decide, ⟨_, rfl⟩⟩
/-- The clauses of OutOfSyncElevenOnlyByResync: a resync from 10, a successful end check from 11, and 11 in SYNCED. -/
theorem witness_OutOfSyncElevenOnlyByResync :
    ((after (step { at_ .synced 0 10 frameB.toList with inputs := polls 1 })).map fun t => t.core.oos) = some 11 ∧
    { at_ .synced 0 10 frameB.toList with inputs := polls 1 }.nextInput.rst = false ∧
    (at_ .synced 0 10 frameB.toList).core.oos ≠ 11 ∧
    ((after (step { at_ .seekingEnd 24 11 [0x00] with inputs := polls 1 })).map fun t => t.core.oos) = some 0 ∧
    (at_ .seekingEnd 24 11 [0x00]).core.oos = 11 ∧ (at_ .seekingEnd 24 11 [0x00]).core.sync ≠ .synced ∧
    (at_ .synced 0 11 frameB.toList).core.sync = .synced ∧ (at_ .synced 0 11 frameB.toList).core.oos = 11 ∧
    (at_ .synced 0 11 frameB.toList).q = frameB.toList ++ [] ∧ ¬ MarkersHold frameB := by decide
/-- Also of CountersRiseByAtMostOne: a step that decodes, one that does not, and a reset. -/
theorem witness_ChannelSetWrittenOnlyByDecodeOrReset :
    (∃ t, step { at_ .synced 0 0 frameG.toList with inputs := polls 1 } = .next t) ∧
    { at_ .synced 0 0 frameG.toList with inputs := polls 1 }.nextInput.rst = false ∧
    (∃ t, step { at_ .synced 0 0 [] with inputs := [{ HostInput.idle with rst := true }] } = .next t) ∧
    { at_ .synced 0 0 [] with inputs := [{ HostInput.idle with rst := true }] }.nextInput.rst = true :=
  ⟨⟨_, rfl⟩, by decide, ⟨_, rfl⟩, by decide⟩
theorem witness_InstancesShareNothing :
    ([State.reset, at_ .synced 0 0 []] : Instances)[1]? = some (at_ .synced 0 0 []) ∧
    ∃ b', Instances.stepAt [State.reset, at_ .synced 0 0 []] 1 = .next b' ∧ (0 : Nat) ≠ 1 :=
  ⟨by decide, ⟨_, rfl, by decide⟩⟩
/-- 25 bytes queued against 30. -/
theorem witness_AvailabilityPast25IsInvisible :
    (at_ .synced 0 0 frameG.toList).core = (at_ .synced 0 0 (frameG.toList ++ [1, 2, 3, 4, 5])).core ∧
    (at_ .synced 0 0 frameG.toList).deliver = (at_ .synced 0 0 (frameG.toList ++ [1, 2, 3, 4, 5])).deliver ∧
    (at_ .synced 0 0 frameG.toList).q.take 25 = (at_ .synced 0 0 (frameG.toList ++ [1, 2, 3, 4, 5])).q.take 25 := by decide
theorem witness_AnalogChannelIsElevenStreamBits : (15 : Nat) < 16 ∧ (10 : Nat) < 11 := by decide
/-- FlagByteGivesDigitalAndFailsafe: a byte 23 for each clause. -/
theorem witness_FlagByteGivesDigitalAndFailsafe :
    (#v[0x0F, 0, 0, 0, 0, 0, 0, 0, 0, 0, 0, 0, 0, 0, 0, 0, 0, 0, 0, 0, 0, 0, 0, 0x0C, 0] : Frame)[23].getLsbD 3 = true ∧
    ((#v[0x0F, 0, 0, 0, 0, 0, 0, 0, 0, 0, 0, 0, 0, 0, 0, 0, 0, 0, 0, 0, 0, 0, 0, 0x07, 0] : Frame)[23].getLsbD 3 = false ∧
      (#v[0x0F, 0, 0, 0, 0, 0, 0, 0, 0, 0, 0, 0, 0, 0, 0, 0, 0, 0, 0, 0, 0, 0, 0, 0x07, 0] : Frame)[23].getLsbD 2 = true) ∧
    (frameG[23].getLsbD 3 = false ∧ frameG[23].getLsbD 2 = false) := by decide
/-- G and B differ in byte 24 alone. -/
theorem witness_UnreadFrameBitsDoNotMatter :
    (∀ j : Fin 25, 1 ≤ j.val → j.val ≤ 22 → frameG[j.val] = frameB[j.val]) ∧
    frameG[23].extractLsb' 0 4 = frameB[23].extractLsb' 0 4 ∧ frameG ≠ frameB := by decide
/-- Ten and eleven copies of B, as program P3 feeds them. -/
theorem witness_ThresholdIsElevenInvalidFrames (n : Nat) :
    (at_ .synced 0 0 []).core.sync = .synced ∧ (at_ .synced 0 0 []).core.oos = 0 ∧
    (∀ F ∈ List.replicate n frameB, ¬ MarkersHold F) ∧ (List.replicate 10 frameB).length = 10 ∧
    (List.replicate 11 frameB).length = 11 ∧
    ({ at_ .synced 0 0 (((List.replicate n frameB).map (·.toList)).flatten ++ []) with inputs := polls n ++ [] } : State).inputs =
      polls (List.replicate n frameB).length ++ [] := by
  refine ⟨by decide, by decide, fun F hF => ?_, by decide, by decide, ?_⟩
  · rw [List.eq_of_mem_replicate hF]; decide
  · rw [List.length_replicate]
theorem witness_NoStartMarkerStaysUnsynced :
    (at_ .unsynced 0 0 [0x00, 0xFF, 0x10]).core.sync = .unsynced ∧ (at_ .unsynced 0 0 [0x00, 0xFF, 0x10]).core.cur = 0 ∧
    (∀ b ∈ (at_ .unsynced 0 0 [0x00, 0xFF, 0x10]).q, b ≠ 0x0F#8) ∧
    (∀ h ∈ [{ HostInput.request 0x20#8 with feed := [0xAA, 0x00] }],
      h.rst = false ∧ h.deliver = none ∧ ∀ b ∈ h.feed, b ≠ 0x0F#8) := by decide
theorem witness_SearchTakesTwentyFivePolls :
    (at_ .unsynced 0 11 frameG.toList).core.sync = .unsynced ∧ MarkersHold frameG ∧
    (at_ .unsynced 0 11 frameG.toList).q = frameG.toList ++ [] ∧
    ({ at_ .unsynced 0 11 frameG.toList with inputs := polls 25 } : State).inputs = polls 25 ++ [] := by decide
/-- A POLL that reads, and three that defer. -/
theorem witness_FirstDecodeIsTwentySixthPoll :
    (∀ h ∈ [{ HostInput.request 0x20#8 with feed := [0xAA], deliver := some 25 }], ∀ k, h.deliver = some k → 25 ≤ k) ∧
    pollsThatRead 1 { State.reset with
      inputs := [{ HostInput.request 0x20#8 with feed := [0xAA], deliver := some 25 }] } = 1 ∧
    pollsThatRead 3 { State.reset with inputs := polls 3 } = 0 ∧ MarkersHold frameG := by
  refine ⟨fun h hh k hk => ?_, by decide, by decide, by decide⟩
  rw [List.mem_singleton.mp hh] at hk
  cases hk; decide

end Sys2Proof.Tests
end

section
/-! Proofs about several instances of the core (00_scope.md R14, 60_exceptions.md R253). -/

namespace Sys2Proof.Machine

/-- Stepping the list at an instance succeeds exactly when that copy's own step does, and then only that place of the
list is rewritten. -/
theorem Instances.stepAt_eq_next_iff {b b' : Instances} {k : Nat} {s : State} (hs : b[k]? = some s) :
    b.stepAt k = .next b' ↔ ∃ t, step s = .next t ∧ b' = b.set k t := by
  simp only [Instances.stepAt, hs]
  cases step s with
  | next t => simp [eq_comm]
  | fault f => simp
  | refused r => simp

/-- Settles O45: the step rewrites place `k` alone, with the next state of the copy's own step. -/
theorem instancesShareNothing : Obligations.InstancesShareNothing := by
  intro b b' k s hs hstep
  obtain ⟨t, ht, rfl⟩ := (Instances.stepAt_eq_next_iff hs).mp hstep
  have hk : k < b.length := (List.getElem?_eq_some_iff.mp hs).1
  exact ⟨⟨t, ht, List.getElem?_set_self hk⟩, List.length_set, fun j hj => List.getElem?_set_ne hj.symm⟩

end Sys2Proof.Machine
end

section
/-! Proofs about the records only a decode, a count or a reset may write: the Channel Set, the failsafe status (10_state.md
R40) and the three statistics counters (R43). -/

open Sys2Proof.Claims

namespace Sys2Proof

/-- The synchronizer state in which the selector picks a poll case (R99). -/
def PollCase.sync : PollCase → Machine.SyncState
  | .uDefer => .unsynced
  | .uStart => .unsynced
  | .uDiscard => .unsynced
  | .sDefer => .seekingEnd
  | .sAdvance => .seekingEnd
  | .sEndOk => .seekingEnd
  | .sEndFail => .seekingEnd
  | .yDefer => .synced
  | .yValid => .synced
  | .yInvalid => .synced
  | .yResync => .synced

end Sys2Proof

namespace Sys2Proof.Machine

/-! ### What the selected case says of the state -/

theorem State.pollCase_sync (s : State) : s.pollCase.sync = s.core.sync := by
  rw [State.pollCase_eq]
  cases s.core.sync with
  | unsynced => dsimp only; split_ifs <;> rfl
  | seekingEnd => dsimp only; split_ifs <;> rfl
  | synced => dsimp only; split_ifs <;> rfl

theorem State.sync_of_pollCase {s : State} {c : PollCase} (hc : s.pollCase = c) : s.core.sync = c.sync := by
  rw [← hc, State.pollCase_sync]

theorem Frame.valid_iff (F : Frame) : F.valid = true ↔ MarkersHold F := by
  simp [Frame.valid, MarkersHold]

theorem State.markerMatch_of_yValid {s : State} (hc : s.pollCase = .yValid) : s.markerMatch = true := by
  have hs : s.core.sync = .synced := State.sync_of_pollCase hc
  by_contra hm
  rw [State.pollCase_eq, hs] at hc
  dsimp only at hc
  split_ifs at hc

/-- In SYNCED a marker match is a frame with both markers at the head of the queue (R98, R151). -/
theorem State.markersHold_of_markerMatch {s : State} {F : Frame} (hs : s.core.sync = .synced)
    (hm : s.markerMatch = true) (hF : F.toList = s.q.take Config.frameLen) : MarkersHold F := by
  simp only [State.markerMatch, hs] at hm
  split at hm
  · next G u hr =>
    obtain ⟨-, hG, -⟩ := State.read_ok hr
    have hFG : F = G := Vector.toList_inj.mp (hF.trans hG.symm)
    exact (Frame.valid_iff F).mp (hFG ▸ hm)
  · cases hm

/-! ### What a step does to the records -/

/-- `d` holds the Channel Set, the failsafe status and the counters of `c`. -/
structure CoreState.RecordsKept (c d : CoreState) : Prop where
  ch : d.ch = c.ch
  fs : d.fs = c.fs
  stat : d.stat = c.stat

/-- What a POLL in SYNCED that reads writes to S, by case (R154, R155, R156); a valid frame is the one at the head of `q`. -/
inductive CoreState.FrameCounted (c : CoreState) (q : List Byte) : CoreState → Prop
  | valid (F : Frame) (rest : List Byte) (hq : q = F.toList ++ rest) (hF : MarkersHold F) :
      c.FrameCounted q (CoreState.decodeFrame { c with nValid := c.nValid + 1, oos := 0 } F)
  | invalid : c.FrameCounted q c.countLost
  | resync : c.FrameCounted q { c.countLost with sync := .unsynced, cur := 0, nResync := c.nResync + 1 }

theorem deferCase_recordsKept {c : PollCase} {s t : State} (h : deferCase c s = .next t) :
    s.core.RecordsKept t.core := by
  obtain ⟨-, rfl⟩ := deferCase_next h
  exact ⟨rfl, rfl, rfl⟩

/-- S after a reading case is the case's effect on the oldest bytes. -/
theorem readCase_next_core {c : PollCase} {n : Nat} {effect : Vector Byte n → CoreState → CoreState} {s t : State}
    (h : readCase c n effect s = .next t) :
    ∃ bytes : Vector Byte n, bytes.toList = s.q.take n ∧ t.core = effect bytes s.core := by
  obtain ⟨-, -, bytes, hb, rfl⟩ := readCase_next h
  exact ⟨bytes, hb, rfl⟩

theorem readCase_recordsKept {c : PollCase} {n : Nat} {effect : Vector Byte n → CoreState → CoreState} {s t : State}
    (h : readCase c n effect s = .next t) (heffect : ∀ bytes d, CoreState.RecordsKept d (effect bytes d)) :
    s.core.RecordsKept t.core := by
  obtain ⟨bytes, -, ht⟩ := readCase_next_core h
  exact ht ▸ heffect bytes s.core

theorem execPollYValid_frameCounted {s t : State} (hc : s.pollCase = .yValid) (h : execPollYValid s = .next t) :
    s.core.FrameCounted s.q t.core := by
  obtain ⟨F, hF, ht⟩ := readCase_next_core h
  have hM : MarkersHold F :=
    State.markersHold_of_markerMatch (State.sync_of_pollCase hc) (State.markerMatch_of_yValid hc) hF
  rw [ht]
  exact .valid F (s.q.drop Config.frameLen) (by rw [hF, List.take_append_drop]) hM

/-- A POLL keeps the records but in the three cases that read a frame in SYNCED. -/
theorem execPoll_records {s t : State} (h : execPoll s = .next t) :
    s.core.RecordsKept t.core ∨ (s.core.sync = .synced ∧ s.core.FrameCounted s.q t.core) := by
  unfold execPoll at h
  split at h
  case h_1 => exact .inl (deferCase_recordsKept h)
  case h_2 => exact .inl (readCase_recordsKept h fun _ _ => ⟨rfl, rfl, rfl⟩)
  case h_3 => exact .inl (readCase_recordsKept h fun _ _ => ⟨rfl, rfl, rfl⟩)
  case h_4 => exact .inl (deferCase_recordsKept h)
  case h_5 => exact .inl (readCase_recordsKept h fun _ _ => ⟨rfl, rfl, rfl⟩)
  case h_6 => exact .inl (readCase_recordsKept h fun _ _ => ⟨rfl, rfl, rfl⟩)
  case h_7 => exact .inl (readCase_recordsKept h fun _ _ => ⟨rfl, rfl, rfl⟩)
  case h_8 => exact .inl (deferCase_recordsKept h)
  case h_9 hc => exact .inr ⟨State.sync_of_pollCase hc, execPollYValid_frameCounted hc h⟩
  case h_10 hc =>
    obtain ⟨-, -, ht⟩ := readCase_next_core h
    exact .inr ⟨State.sync_of_pollCase hc, ht ▸ .invalid⟩
  case h_11 hc =>
    obtain ⟨-, -, ht⟩ := readCase_next_core h
    exact .inr ⟨State.sync_of_pollCase hc, ht ▸ .resync⟩

/-- A step without a reset keeps the records, or is a POLL in SYNCED that reads a frame. -/
theorem step_records {s t : State} (hrst : s.nextInput.rst = false) (h : step s = .next t) :
    s.core.RecordsKept t.core ∨ (s.nextInput.instr = .poll ∧ s.core.sync = .synced ∧
      s.core.FrameCounted (s.q ++ s.nextInput.feed) t.core) := by
  rw [step_request hrst] at h
  by_cases hp : s.nextInput.instr = .poll
  · rw [hp] at h
    exact (execPoll_records (s := s.present) h).imp_right fun hcount => ⟨hp, hcount⟩
  · obtain ⟨err, data, hr⟩ := exec_request_only_responds s.nextInput.instr_isRequest hp s.present
    rw [hr] at h
    cases h
    exact .inl ⟨rfl, rfl, rfl⟩

theorem step_core_of_reset {s t : State} (hrst : s.nextInput.rst = true) (h : step s = .next t) :
    t.core = CoreState.reset := by
  rw [step_reset hrst] at h
  cases h
  rfl

/-! ### R40 and R43 -/

theorem CoreState.FrameCounted.channels {c d : CoreState} {q : List Byte} (h : c.FrameCounted q d) :
    (d.ch = c.ch ∧ d.fs = c.fs) ∨
    ∃ (F : Frame) (rest : List Byte), q = F.toList ++ rest ∧ MarkersHold F ∧ d.ch = F.channels ∧ d.fs = F.failsafe := by
  cases h with
  | valid F rest hq hF => exact .inr ⟨F, rest, hq, hF, by simp, by simp⟩
  | invalid => exact .inl ⟨rfl, rfl⟩
  | resync => exact .inl ⟨rfl, rfl⟩

theorem CoreState.FrameCounted.stat {c d : CoreState} {q : List Byte} (h : c.FrameCounted q d) (k : StatCounter) :
    c.stat k ≤ d.stat k ∧ d.stat k ≤ c.stat k + 1 := by
  cases h with
  | valid F => cases k <;> simp [CoreState.stat]
  | invalid => cases k <;> simp [CoreState.stat]
  | resync => cases k <;> simp [CoreState.stat]

/-- Settles O43: only a frame with both markers is decoded, and every other effect of a step keeps the Channel Set. -/
theorem channelSetWrittenOnlyByDecodeOrReset : Obligations.ChannelSetWrittenOnlyByDecodeOrReset := by
  intro s t h
  refine ⟨fun hrst => ?_, fun hrst => ?_⟩
  · rw [step_core_of_reset hrst h]
    exact ⟨rfl, rfl⟩
  · obtain hkept | ⟨hp, hs, hcount⟩ := step_records hrst h
    · exact .inl ⟨hkept.ch, hkept.fs⟩
    · exact hcount.channels.imp_right fun hdecoded => ⟨hp, hs, hdecoded⟩

/-- Settles O44: a frame read in SYNCED adds at most 1 to each counter, and every other effect of a step keeps them. -/
theorem countersRiseByAtMostOne : Obligations.CountersRiseByAtMostOne := by
  intro s t h
  refine ⟨fun hrst => ?_, fun hrst k => ?_⟩
  · rw [step_core_of_reset hrst h]
    exact ⟨rfl, rfl, rfl⟩
  · obtain hkept | ⟨hp, hs, hcount⟩ := step_records hrst h
    · rw [hkept.stat]
      exact ⟨Nat.le_refl _, Nat.le_succ _, fun hne => absurd rfl hne⟩
    · obtain ⟨hge, hle⟩ := hcount.stat k
      exact ⟨hge, hle, fun _ => ⟨hp, hs⟩⟩

end Sys2Proof.Machine
end

section
/-! Proofs about the request word: `op` chooses the form (30_encoding.md R100), and only RD_CHANNEL reads `idx` (R92). -/

namespace Sys2Proof

theorem reqOp_eq_ofNat (w : RequestWord) : reqOp w = BitVec.ofNat 3 (w.toNat / 32) := by
  apply BitVec.eq_of_toNat_eq
  simp [reqOp, Nat.shiftRight_eq_div_pow]

theorem reqIdx_eq_ofNat (w : RequestWord) : reqIdx w = BitVec.ofNat 5 w.toNat := by
  apply BitVec.eq_of_toNat_eq
  simp [reqIdx]

theorem reqIdx_toNat (w : RequestWord) : (reqIdx w).toNat = w.toNat % 32 := by simp [reqIdx]

theorem reqOp_eq_three_iff (w : RequestWord) : reqOp w = 0b011#3 ↔ w.toNat / 32 = 3 := by
  have hw : w.toNat < 256 := w.isLt
  rw [reqOp_eq_ofNat, ← BitVec.toNat_inj, BitVec.toNat_ofNat, BitVec.toNat_ofNat]
  omega

theorem decode_of_rdChannel_op {w : RequestWord} (h : w.toNat / 32 = 3) : decode w = decodeChannelRead (reqIdx w) := by
  simp [decode, (reqOp_eq_three_iff w).mpr h]

/-- Outside RD_CHANNEL the form depends on `op` alone. -/
theorem decode_eq_of_reqOp_eq {v w : RequestWord} (h : reqOp v = reqOp w) (hw : reqOp w ≠ 0b011#3) :
    decode v = decode w := by
  simp [decode, h, hw]

/-- Clearing `idx` keeps `op`. -/
theorem reqOp_and_opMask (w : RequestWord) : reqOp (w &&& 0xE0#8) = reqOp w := by
  have hmask : (0xE0#8).extractLsb' 5 3 = BitVec.allOnes 3 := by decide
  rw [reqOp, BitVec.extractLsb'_and, hmask, BitVec.and_allOnes, reqOp]

theorem decodeChannelRead_cases (idx : ChannelIndex) :
    decodeChannelRead idx = .rdChannel idx ∨ decodeChannelRead idx = .rdChannelErr idx := by
  unfold decodeChannelRead
  split
  · exact .inl rfl
  · exact .inr rfl

/-- Settles O2: `op` is the word divided by 32, and picks one branch of the decoding procedure. -/
theorem decodeFollowsOpcodeField : Obligations.DecodeFollowsOpcodeField := by
  intro w
  refine ⟨fun h => ?_, fun h => ?_, fun h => ?_, fun h hlt => ?_, fun h hge => ?_, fun h => ?_, fun h => ?_,
    fun h => ?_, fun h => ?_⟩
  case refine_4 =>
    rw [decode_of_rdChannel_op h, decodeChannelRead, reqIdx_toNat, if_pos hlt, reqIdx_eq_ofNat]
  case refine_5 =>
    rw [decode_of_rdChannel_op h, decodeChannelRead, reqIdx_toNat, if_neg (Nat.not_lt.mpr hge), reqIdx_eq_ofNat]
  all_goals simp [decode, reqOp_eq_ofNat, h]

end Sys2Proof

namespace Sys2Proof.Machine

theorem HostInput.instr_of_req {h : HostInput} {w : RequestWord} (hr : h.req = some w) : h.instr = decode w := by
  simp [HostInput.instr, hr]

/-- A step sees of the presented request word only the instruction it decodes to. -/
theorem step_eq_of_same_instr {s : State} {h : HostInput} {rest : List HostInput} {req : Option RequestWord}
    (hi : s.inputs = h :: rest) (hinstr : h.instr = { h with req := req }.instr) :
    step s = step { s with inputs := { h with req := req } :: rest } := by
  simp [step, State.present, State.nextInput, hi, hinstr]

/-- Settles O3: clearing `idx` keeps `op`, on which alone every other form depends. -/
theorem indexIgnoredOutsideRdChannel : Obligations.IndexIgnoredOutsideRdChannel := by
  intro s h rest w hi hr
  refine ⟨fun hop => step_eq_of_same_instr hi ?_, fun hop => ⟨reqIdx w, reqIdx_toNat w, ?_⟩⟩
  · rw [HostInput.instr_of_req hr, HostInput.instr_of_req rfl]
    exact (decode_eq_of_reqOp_eq (reqOp_and_opMask w) (mt (reqOp_eq_three_iff w).mp hop)).symm
  · rw [HostInput.instr_of_req hr, decode_of_rdChannel_op hop]
    exact decodeChannelRead_cases _

end Sys2Proof.Machine
end

section
/-! Proofs about the poll-case selector: its six bits (30_encoding.md R98) and the row they pick (R99). -/

open Sys2Proof.Claims

namespace Sys2Proof

/-! ### The parts of a selector -/

theorem assembleSelector_state : ∀ (x : BitVec 2) (a l m t : Bool),
    (assembleSelector x a l m t).extractLsb' 4 2 = x := by decide

theorem assembleSelector_bits : ∀ (x : BitVec 2) (a l m t : Bool),
    (assembleSelector x a l m t).getLsbD 3 = a ∧ (assembleSelector x a l m t).getLsbD 2 = l ∧
    (assembleSelector x a l m t).getLsbD 1 = m ∧ (assembleSelector x a l m t).getLsbD 0 = t := by decide

/-- The rows that match a selector are the one its case is chosen from: there is no second. -/
theorem pollRows_filter_hits : ∀ (x : BitVec 2) (a l m t : Bool), x ≠ 0b11#2 →
    (pollRows.filter (·.hits (assembleSelector x a l m t))).map (·.case) =
      (selectCase (assembleSelector x a l m t)).toList := by decide

end Sys2Proof

namespace Sys2Proof.Machine

@[simp] theorem State.selector_state (s : State) : s.selector.extractLsb' 4 2 = s.core.sync.code :=
  assembleSelector_state ..

@[simp] theorem State.selector_A (s : State) : s.selector.getLsbD 3 = s.enough := (assembleSelector_bits ..).1

@[simp] theorem State.selector_L (s : State) : s.selector.getLsbD 2 = s.atLast := (assembleSelector_bits ..).2.1

@[simp] theorem State.selector_M (s : State) : s.selector.getLsbD 1 = s.markerMatch := (assembleSelector_bits ..).2.2.1

@[simp] theorem State.selector_T (s : State) : s.selector.getLsbD 0 = s.overThreshold :=
  (assembleSelector_bits ..).2.2.2

/-! ### When each part is set -/

theorem State.enough_iff (s : State) : s.enough = true ↔ s.core.sync.need ≤ s.q.length := decide_eq_true_iff

theorem State.enough_eq_false_iff (s : State) : s.enough = false ↔ s.q.length < s.core.sync.need := by
  rw [Bool.eq_false_iff, ne_eq, State.enough_iff, Nat.not_le]

theorem SyncState.need_eq (x : SyncState) : x.need = if x = .synced then 25 else 1 := by
  cases x <;> rfl

theorem State.atLast_iff (s : State) : s.atLast = true ↔ s.core.sync = .seekingEnd ∧ s.core.cur.val = 24 := by
  simp [State.atLast]

theorem State.overThreshold_iff (s : State) : s.overThreshold = true ↔
    s.core.sync = .synced ∧ s.enough = true ∧ s.markerMatch = false ∧ s.core.oos.val + 1 > 10 := by
  simp [State.overThreshold, and_assoc]

/-- A marker match needs the bytes it is made on. -/
theorem State.enough_of_markerMatch {s : State} (h : s.markerMatch = true) : s.enough = true := by
  rw [State.enough_iff]
  unfold State.markerMatch at h
  split at h
  all_goals
    rename_i hs
    rw [hs]
    split at h
    · next hr => exact (State.read_ok hr).1
    · cases h

/-- `Read(n)` of a queue that begins with `n` given bytes, the contract kept, returns them. -/
theorem State.read_of_append {s : State} {n : Nat} {v : Vector Byte n} {rest : List Byte}
    (hq : s.q = v.toList ++ rest) (hd : s.delivers n) : s.read n = .ok (v, s.consume n) := by
  have ha : n ≤ s.avail := by simp [State.avail, hq]
  obtain ⟨bytes, hb, hr⟩ := State.read_eq_ok ha hd
  have hv : bytes = v := by
    apply Vector.toList_inj.mp
    rw [hb, hq, List.take_left' v.length_toList]
  rw [hr, hv]

theorem State.read_one {s : State} {b : Byte} {rest : List Byte} (hq : s.q = b :: rest) (hd : s.delivers 1) :
    s.read 1 = .ok (#v[b], s.consume 1) := State.read_of_append (v := #v[b]) hq hd

theorem State.markerMatch_unsynced {s : State} {b : Byte} {rest : List Byte} (hs : s.core.sync = .unsynced)
    (hd : s.delivers 1) (hq : s.q = b :: rest) : s.markerMatch = true ↔ b = 0x0F#8 := by
  simp [State.markerMatch, hs, State.read_one hq hd]

theorem State.markerMatch_seekingEnd {s : State} {b : Byte} {rest : List Byte} (hs : s.core.sync = .seekingEnd)
    (hd : s.delivers 1) (hq : s.q = b :: rest) : s.markerMatch = true ↔ s.core.cur.val = 24 ∧ b = 0x00#8 := by
  simp [State.markerMatch, hs, State.read_one hq hd, State.atLast_iff]

theorem State.markerMatch_synced {s : State} {F : Frame} {rest : List Byte} (hs : s.core.sync = .synced)
    (hd : s.delivers 25) (hq : s.q = F.toList ++ rest) : s.markerMatch = true ↔ MarkersHold F := by
  simp only [State.markerMatch, hs, State.read_of_append hq hd, Frame.valid_iff]

/-- Settles O5: each bit of the selector is one part of it, and each part is set as R98's table says. -/
theorem selectorBitsFollowState : Obligations.SelectorBitsFollowState := by
  intro s
  simp only [State.selector_state, State.selector_A, State.selector_L, State.selector_M, State.selector_T]
  refine ⟨fun hs => ?_, fun hs => ?_, fun hs => ?_, ?_, s.atLast_iff, fun hA => ⟨?_, ?_⟩,
    fun hs hd _ _ hq => State.markerMatch_unsynced hs hd hq, fun hs hd _ _ hq => State.markerMatch_seekingEnd hs hd hq,
    fun hs hd _ _ hq => State.markerMatch_synced hs hd hq, s.overThreshold_iff⟩
  · rw [hs]; rfl
  · rw [hs]; rfl
  · rw [hs]; rfl
  · rw [State.enough_iff, SyncState.need_eq]
  · exact Bool.eq_false_iff.mpr fun hM => Bool.eq_false_iff.mp hA (State.enough_of_markerMatch hM)
  · refine Bool.eq_false_iff.mpr fun hT => ?_
    obtain ⟨-, henough, -⟩ := s.overThreshold_iff.mp hT
    exact Bool.eq_false_iff.mp hA henough

/-! ### The row of a state -/

/-- The condition column of R99's table. -/
def State.meets (s : State) : PollCase → Prop
  | .uDefer => s.core.sync = .unsynced ∧ s.q = []
  | .uStart => s.core.sync = .unsynced ∧ ∃ rest, s.q = 0x0F#8 :: rest
  | .uDiscard => s.core.sync = .unsynced ∧ ∃ b rest, b ≠ 0x0F#8 ∧ s.q = b :: rest
  | .sDefer => s.core.sync = .seekingEnd ∧ s.q = []
  | .sAdvance => s.core.sync = .seekingEnd ∧ s.q ≠ [] ∧ s.core.cur.val < 24
  | .sEndOk => s.core.sync = .seekingEnd ∧ s.core.cur.val = 24 ∧ ∃ rest, s.q = 0x00#8 :: rest
  | .sEndFail => s.core.sync = .seekingEnd ∧ s.core.cur.val = 24 ∧ ∃ b rest, b ≠ 0x00#8 ∧ s.q = b :: rest
  | .yDefer => s.core.sync = .synced ∧ s.q.length < 25
  | .yValid => s.core.sync = .synced ∧ ∃ (F : Frame) (rest : List Byte), s.q = F.toList ++ rest ∧ MarkersHold F
  | .yInvalid => s.core.sync = .synced ∧ s.core.oos.val + 1 ≤ 10 ∧
      ∃ (F : Frame) (rest : List Byte), s.q = F.toList ++ rest ∧ ¬ MarkersHold F
  | .yResync => s.core.sync = .synced ∧ s.core.oos.val + 1 > 10 ∧
      ∃ (F : Frame) (rest : List Byte), s.q = F.toList ++ rest ∧ ¬ MarkersHold F

/-- A queue of 25 bytes or more begins with a frame. -/
theorem exists_frame_append {q : List Byte} (h : 25 ≤ q.length) :
    ∃ (F : Frame) (rest : List Byte), q = F.toList ++ rest :=
  ⟨⟨(q.take 25).toArray, by simpa using h⟩, q.drop 25, by simp [Vector.toList]⟩

/-- The conditions leave no state out. -/
theorem State.exists_meets (s : State) : ∃ c, s.meets c := by
  cases hs : s.core.sync with
  | unsynced =>
    match hq : s.q with
    | [] => exact ⟨.uDefer, hs, hq⟩
    | b :: rest =>
      by_cases hb : b = 0x0F#8
      · exact ⟨.uStart, hs, rest, hb ▸ hq⟩
      · exact ⟨.uDiscard, hs, b, rest, hb, hq⟩
  | seekingEnd =>
    match hq : s.q with
    | [] => exact ⟨.sDefer, hs, hq⟩
    | b :: rest =>
      obtain hcur | hcur := Nat.lt_or_eq_of_le (Nat.le_of_lt_succ s.core.cur_lt)
      · exact ⟨.sAdvance, hs, by simp [hq], hcur⟩
      · by_cases hb : b = 0x00#8
        · exact ⟨.sEndOk, hs, hcur, rest, hb ▸ hq⟩
        · exact ⟨.sEndFail, hs, hcur, b, rest, hb, hq⟩
  | synced =>
    obtain hlen | hlen := Nat.lt_or_ge s.q.length 25
    · exact ⟨.yDefer, hs, hlen⟩
    · obtain ⟨F, rest, hq⟩ := exists_frame_append hlen
      by_cases hF : MarkersHold F
      · exact ⟨.yValid, hs, F, rest, hq, hF⟩
      · obtain hoos | hoos := Nat.lt_or_ge 10 (s.core.oos.val + 1)
        · exact ⟨.yResync, hs, hoos, F, rest, hq, hF⟩
        · exact ⟨.yInvalid, hs, hoos, F, rest, hq, hF⟩

/-- With the bytes delivered, a row whose condition holds is the case POLL runs. -/
theorem State.pollCase_of_meets {s : State} {c : PollCase} (hd : s.delivers s.core.sync.need) (h : s.meets c) :
    s.pollCase = c := by
  cases c with
  | uDefer =>
    obtain ⟨hs, hq⟩ := h
    have hA : s.enough = false := s.enough_eq_false_iff.mpr (by simp [hs, hq, SyncState.need])
    simp [State.pollCase_eq, hs, hA]
  | uStart =>
    obtain ⟨hs, rest, hq⟩ := h
    rw [hs] at hd
    have hM : s.markerMatch = true := (State.markerMatch_unsynced hs hd hq).mpr rfl
    simp [State.pollCase_eq, hs, State.enough_of_markerMatch hM, hM]
  | uDiscard =>
    obtain ⟨hs, b, rest, hb, hq⟩ := h
    rw [hs] at hd
    have hA : s.enough = true := s.enough_iff.mpr (by simp [hs, hq, SyncState.need])
    have hM : s.markerMatch = false := Bool.eq_false_iff.mpr (mt (State.markerMatch_unsynced hs hd hq).mp hb)
    simp [State.pollCase_eq, hs, hA, hM]
  | sDefer =>
    obtain ⟨hs, hq⟩ := h
    have hA : s.enough = false := s.enough_eq_false_iff.mpr (by simp [hs, hq, SyncState.need])
    simp [State.pollCase_eq, hs, hA]
  | sAdvance =>
    obtain ⟨hs, hq, hcur⟩ := h
    have hA : s.enough = true := s.enough_iff.mpr (by rw [hs]; exact List.length_pos_iff.mpr hq)
    have hL : s.atLast = false := Bool.eq_false_iff.mpr fun hL => Nat.ne_of_lt hcur (s.atLast_iff.mp hL).2
    simp [State.pollCase_eq, hs, hA, hL]
  | sEndOk =>
    obtain ⟨hs, hcur, rest, hq⟩ := h
    rw [hs] at hd
    have hL : s.atLast = true := s.atLast_iff.mpr ⟨hs, hcur⟩
    have hM : s.markerMatch = true := (State.markerMatch_seekingEnd hs hd hq).mpr ⟨hcur, rfl⟩
    simp [State.pollCase_eq, hs, State.enough_of_markerMatch hM, hL, hM]
  | sEndFail =>
    obtain ⟨hs, hcur, b, rest, hb, hq⟩ := h
    rw [hs] at hd
    have hA : s.enough = true := s.enough_iff.mpr (by simp [hs, hq, SyncState.need])
    have hL : s.atLast = true := s.atLast_iff.mpr ⟨hs, hcur⟩
    have hM : s.markerMatch = false :=
      Bool.eq_false_iff.mpr fun hM => hb ((State.markerMatch_seekingEnd hs hd hq).mp hM).2
    simp [State.pollCase_eq, hs, hA, hL, hM]
  | yDefer =>
    obtain ⟨hs, hlen⟩ := h
    have hA : s.enough = false := s.enough_eq_false_iff.mpr (by simpa [hs, SyncState.need] using hlen)
    simp [State.pollCase_eq, hs, hA]
  | yValid =>
    obtain ⟨hs, F, rest, hq, hF⟩ := h
    rw [hs] at hd
    have hM : s.markerMatch = true := (State.markerMatch_synced hs hd hq).mpr hF
    simp [State.pollCase_eq, hs, State.enough_of_markerMatch hM, hM]
  | yInvalid =>
    obtain ⟨hs, hoos, F, rest, hq, hF⟩ := h
    rw [hs] at hd
    have hA : s.enough = true := s.enough_iff.mpr (by simp [hs, hq, SyncState.need])
    have hM : s.markerMatch = false := Bool.eq_false_iff.mpr (mt (State.markerMatch_synced hs hd hq).mp hF)
    have hT : s.overThreshold = false := Bool.eq_false_iff.mpr fun hT => by
      obtain ⟨-, -, -, hover⟩ := s.overThreshold_iff.mp hT
      omega
    simp [State.pollCase_eq, hs, hA, hM, hT]
  | yResync =>
    obtain ⟨hs, hoos, F, rest, hq, hF⟩ := h
    rw [hs] at hd
    have hA : s.enough = true := s.enough_iff.mpr (by simp [hs, hq, SyncState.need])
    have hM : s.markerMatch = false := Bool.eq_false_iff.mpr (mt (State.markerMatch_synced hs hd hq).mp hF)
    have hT : s.overThreshold = true := s.overThreshold_iff.mpr ⟨hs, hA, hM, hoos⟩
    simp [State.pollCase_eq, hs, hA, hM, hT]

theorem State.pollCase_eq_iff {s : State} (hd : s.delivers s.core.sync.need) (c : PollCase) :
    s.pollCase = c ↔ s.meets c := by
  refine ⟨fun hc => ?_, State.pollCase_of_meets hd⟩
  obtain ⟨d, h⟩ := s.exists_meets
  rwa [← hc, State.pollCase_of_meets hd h]

theorem State.pollRows_selector (s : State) :
    (pollRows.filter (·.hits s.selector)).map (·.case) = [s.pollCase] := by
  have hcase : selectCase s.selector = some s.pollCase := by rw [State.pollCase, Option.some_get]
  calc (pollRows.filter (·.hits s.selector)).map (·.case)
      = (selectCase s.selector).toList := pollRows_filter_hits _ _ _ _ _ (SyncState.code_ne_three _)
    _ = [s.pollCase] := by rw [hcase, Option.toList_some]

/-- Settles O6: the conditions leave no state out, and each fixes the selector's parts that its row compares. -/
theorem pollRowsMatchTheirConditions : Obligations.PollRowsMatchTheirConditions := by
  refine ⟨rfl, fun s => ⟨s.pollRows_selector, fun hd => ?_⟩⟩
  have key := State.pollCase_eq_iff hd
  exact ⟨key .uDefer, key .uStart, key .uDiscard, key .sDefer, key .sAdvance, key .sEndOk, key .sEndFail, key .yDefer,
    key .yValid, key .yInvalid, key .yResync⟩

end Sys2Proof.Machine
end

section
/-! Proofs about the bit layouts of response data (30_encoding.md R95, R96, R97). -/

namespace Sys2Proof.Machine

/-- Digit `i` of a packed list stands in bits `w * i` to `w * i + w - 1`. -/
theorem packLE_extractLsb' {w n : Nat} (l : List (BitVec w)) {i : Nat} (hi : w * i + w ≤ n) :
    (BitVec.ofNat n (packLE l)).extractLsb' (w * i) w = l.getD i 0 := by
  apply BitVec.eq_of_getLsbD_eq
  intro j hj
  have hdiv : (w * i + j) / w = i := by rw [Nat.mul_add_div (by omega), Nat.div_eq_of_lt hj, Nat.add_zero]
  have hmod : (w * i + j) % w = j := by rw [Nat.mul_add_mod, Nat.mod_eq_of_lt hj]
  have hn : w * i + j < n := by omega
  rw [BitVec.getLsbD_extractLsb', BitVec.getLsbD_ofNat, packLE_testBit (by omega), hdiv, hmod]
  simp [hj, hn]

/-- The lowest digit of a packed list. -/
theorem packLE_cons_mod {w : Nat} (d : BitVec w) (l : List (BitVec w)) : packLE (d :: l) % 2 ^ w = d.toNat := by
  rw [packLE_cons, Nat.add_mul_mod_self_left, Nat.mod_eq_of_lt d.isLt]

/-- The digits above the lowest. -/
theorem packLE_cons_div {w : Nat} (d : BitVec w) (l : List (BitVec w)) : packLE (d :: l) / 2 ^ w = packLE l := by
  rw [packLE_cons, Nat.add_mul_div_left _ _ (Nat.two_pow_pos w), Nat.div_eq_of_lt d.isLt, Nat.zero_add]

theorem statField_toNat {k : StatCounter} {n life : Nat} (h : n < 2 ^ Config.statWidth) :
    (statField k n life).toNat = n := by
  rw [statField, if_pos h, BitVec.toNat_ofNat, Nat.mod_eq_of_lt h]

theorem statusWord_toNat (x : SyncState) (cur : Fin Config.cursorValues) (oos : Fin (Config.oosMax + 1)) :
    (statusWord x cur oos).toNat = 128 * oos.val + 4 * cur.val + x.code.toNat := by
  have hcur : cur.val < 25 := cur.isLt
  have hoos : oos.val < 12 := oos.isLt
  rw [statusWord, BitVec.toNat_append, BitVec.toNat_append, BitVec.toNat_ofNat, BitVec.toNat_ofNat,
    ← Nat.shiftLeft_add_eq_or_of_lt x.code.isLt, ← Nat.shiftLeft_add_eq_or_of_lt (by omega), Nat.shiftLeft_eq,
    Nat.shiftLeft_eq]
  omega

/-- Settles O55: the data are packed little-endian, each field a digit of the packed number. -/
theorem responseDataLayouts : Obligations.ResponseDataLayouts := by
  refine ⟨fun v i life => ?_, fun a b c life ha hb hc => ?_, fun x cur oos life => ?_⟩
  · have hi : i.val < 18 := i.isLt
    have hfits : 11 * i.val + 11 ≤ 198 := by omega
    rw [RspData.word]
    refine (packLE_extractLsb' v.toList hfits).trans ?_
    simp [List.getD]
  · refine ⟨?_, ?_, ?_⟩
    · rw [RspData.word, packLE_cons_mod, statField_toNat ha]
    · rw [RspData.word, packLE_cons_div, packLE_cons_mod, statField_toNat hb]
    · rw [Nat.mul_comm 2, Nat.pow_mul, Nat.pow_two, ← Nat.div_div_eq_div_mul, RspData.word, packLE_cons_div,
        packLE_cons_div]
      simp [statField_toNat hc]
  · have hcur : cur.val < 25 := cur.isLt
    have hoos : oos.val < 12 := oos.isLt
    have hx : x.code.toNat < 4 := x.code.isLt
    rw [RspData.word, statusWord_toNat]
    omega

end Sys2Proof.Machine
end

section
/-! Proofs about POLL: what each of its eleven cases does to the state, given once, then the searching cases (40_sync.md
R122 to R128), the count of bytes consumed (R121) and the pseudocode (R120, R150). -/

open Sys2Proof.Claims

namespace Sys2Proof

/-- How many bytes a poll case reads (R121). -/
@[simp] def PollCase.size : PollCase → Nat
  | .uDefer => 0
  | .uStart => 1
  | .uDiscard => 1
  | .sDefer => 0
  | .sAdvance => 1
  | .sEndOk => 1
  | .sEndFail => 1
  | .yDefer => 0
  | .yValid => 25
  | .yInvalid => 25
  | .yResync => 25

/-- What a poll case writes to S, the queue before its Read being `q` (R122 to R128, R152 to R156). -/
@[simp] def PollCase.effect (q : List Byte) (d : Machine.CoreState) : PollCase → Machine.CoreState
  | .uDefer => d
  | .uStart => { d with sync := .seekingEnd, cur := 1 }
  | .uDiscard => d
  | .sDefer => d
  | .sAdvance => { d with cur := Machine.curNext d.cur }
  | .sEndOk => { d with sync := .synced, cur := 0, oos := 0 }
  | .sEndFail => { d with sync := .unsynced, cur := 0 }
  | .yDefer => d
  | .yValid => Machine.CoreState.decodeFrame { d with nValid := d.nValid + 1, oos := 0 } (frameOf q)
  | .yInvalid => d.countLost
  | .yResync => { d.countLost with sync := .unsynced, cur := 0, nResync := d.nResync + 1 }

/-- The rows of R99's table are told apart by their case. -/
theorem pollRows_case_injective : ∀ r ∈ pollRows, ∀ r' ∈ pollRows, r.case = r'.case → r = r' := by decide

end Sys2Proof

namespace Sys2Proof.Machine

/-! ### The selected case: its row and its size -/

/-- The selector matches the row of its case (R99). -/
theorem State.selector_and_mask {s : State} {r : PollRow} (hr : r ∈ pollRows) (hc : s.pollCase = r.case) :
    s.selector &&& r.mask = r.code := by
  have hmem : s.pollCase ∈ (pollRows.filter (·.hits s.selector)).map (·.case) := by simp [s.pollRows_selector]
  obtain ⟨r', hr', hcase⟩ := List.mem_map.mp hmem
  obtain ⟨hrow, hhits⟩ := List.mem_filter.mp hr'
  rw [pollRows_case_injective r hr r' hrow (hc ▸ hcase.symm)]
  exact beq_iff_eq.mp hhits

/-- A POLL reads what its sync state needs, or nothing where the queue holds fewer bytes (R68, R121). -/
theorem State.pollCase_size (s : State) :
    s.pollCase.size = if s.q.length < s.core.sync.need then 0 else s.core.sync.need := by
  rw [State.pollCase_eq]
  simp only [State.enough_eq_false_iff]
  cases s.core.sync with
  | unsynced => dsimp only; split_ifs <;> rfl
  | seekingEnd => dsimp only; split_ifs <;> rfl
  | synced => dsimp only; split_ifs <;> rfl

/-- The case of a POLL that finds too few bytes. -/
def SyncState.deferral : SyncState → PollCase
  | .unsynced => .uDefer
  | .seekingEnd => .sDefer
  | .synced => .yDefer

/-- A POLL that finds too few bytes defers, whatever the Byte Source would deliver. -/
theorem State.pollCase_of_lt {s : State} (h : s.q.length < s.core.sync.need) : s.pollCase = s.core.sync.deferral := by
  rw [State.pollCase_eq, s.enough_eq_false_iff.mpr h]
  cases s.core.sync <;> rfl

/-! ### What the selected case does -/

/-- The state after a poll case. -/
def State.afterCase (s : State) (c : PollCase) : State :=
  { s with
    core := c.effect s.q s.core
    q := s.q.drop c.size
    rsp := some ⟨.ok, .consumed (BitVec.ofNat 5 c.size)⟩ }

/-- A POLL that finds too few bytes reads nothing, so its read is not short. -/
theorem State.shortRead_of_lt {s : State} (h : s.q.length < s.core.sync.need) : s.shortRead = none := by
  simp [State.shortRead, s.enough_eq_false_iff.mpr h]

/-- Where no read is short, the Read of what the sync state needs returns the oldest bytes. -/
theorem State.read_of_shortRead_eq_none {s : State} {n : Nat} (hs : s.shortRead = none) (hn : s.core.sync.need = n)
    (ha : n ≤ s.q.length) : ∃ bytes : Vector Byte n, bytes.toList = s.q.take n ∧ s.read n = .ok (bytes, s.consume n) := by
  subst hn
  cases hr : s.read s.core.sync.need with
  | ok read =>
    obtain ⟨bytes, t⟩ := read
    obtain ⟨-, hb, rfl⟩ := State.read_ok hr
    exact ⟨bytes, hb, rfl⟩
  | error f => simp [State.shortRead, s.enough_iff.mpr ha, hr] at hs

theorem frameOf_of_toList_eq_take {F : Frame} {q : List Byte} (h : F.toList = q.take 25) : frameOf q = F := by
  apply Vector.ext
  intro i hi
  have hF : F[i] = (q.take 25)[i]?.getD 0 := by simp [← h, hi]
  rw [hF, List.getElem?_take_of_lt hi]
  simp [frameOf]

/-- A selected reading case, its effect being the case's on the oldest bytes. -/
theorem readCase_eq_afterCase {c : PollCase} {n : Nat} {effect : Vector Byte n → CoreState → CoreState} {s : State}
    (hs : s.shortRead = none) (hc : s.pollCase = c) (hn : c.size = n) (hpos : n ≠ 0)
    (heffect : ∀ bytes : Vector Byte n, bytes.toList = s.q.take n → effect bytes s.core = c.effect s.q s.core) :
    readCase c n effect s = .next (s.afterCase c) := by
  have hsize := s.pollCase_size
  rw [hc, hn] at hsize
  split_ifs at hsize with hlt
  · exact absurd hsize hpos
  · obtain ⟨bytes, hb, hr⟩ := State.read_of_shortRead_eq_none hs hsize.symm (by omega)
    rw [readCase_eq hs hc hr, heffect bytes hb, State.afterCase, hn]
    rfl

/-- What the row of the selected case does where no read is short. -/
theorem exec_case_eq {s : State} {c : PollCase} (hs : s.shortRead = none) (hc : s.pollCase = c) :
    exec c.instr s = .next (s.afterCase c) := by
  cases c with
  | uDefer => exact deferCase_eq hs hc
  | uStart =>
    unfold PollCase.instr exec execPollUStart
    exact readCase_eq_afterCase hs hc rfl (by decide) fun _ _ => rfl
  | uDiscard =>
    unfold PollCase.instr exec execPollUDiscard
    exact readCase_eq_afterCase hs hc rfl (by decide) fun _ _ => rfl
  | sDefer => exact deferCase_eq hs hc
  | sAdvance =>
    unfold PollCase.instr exec execPollSAdvance
    exact readCase_eq_afterCase hs hc rfl (by decide) fun _ _ => rfl
  | sEndOk =>
    unfold PollCase.instr exec execPollSEndOk
    exact readCase_eq_afterCase hs hc rfl (by decide) fun _ _ => rfl
  | sEndFail =>
    unfold PollCase.instr exec execPollSEndFail
    exact readCase_eq_afterCase hs hc rfl (by decide) fun _ _ => rfl
  | yDefer => exact deferCase_eq hs hc
  | yValid =>
    unfold PollCase.instr exec execPollYValid
    refine readCase_eq_afterCase hs hc rfl (by decide) fun F hF => ?_
    rw [PollCase.effect, frameOf_of_toList_eq_take hF]
  | yInvalid =>
    unfold PollCase.instr exec execPollYInvalid
    exact readCase_eq_afterCase hs hc rfl (by decide) fun _ _ => rfl
  | yResync =>
    unfold PollCase.instr exec execPollYResync
    exact readCase_eq_afterCase hs hc rfl (by decide) fun _ _ => rfl

/-- Every case row has its effect only where it is selected (R99). -/
theorem exec_case_eq_whenSelected (c : PollCase) (s : State) : ∃ a, exec c.instr s = whenSelected c s a := by
  cases c <;> exact ⟨_, rfl⟩

/-- A short read is the fault of whichever case row runs (R243). -/
theorem exec_case_of_shortRead {s : State} {f : Fault} (hs : s.shortRead = some f) (c : PollCase) :
    exec c.instr s = .fault f := by
  obtain ⟨a, ha⟩ := exec_case_eq_whenSelected c s
  simp [ha, whenSelected, hs]

theorem exec_poll_eq_case (s : State) : exec .poll s = exec s.pollCase.instr s := execPoll_eq_case s

/-- Everything a POLL that gives a next state can do. -/
theorem exec_poll_next {s t : State} (h : exec .poll s = .next t) : t = s.afterCase s.pollCase := by
  rw [exec_poll_eq_case] at h
  cases hs : s.shortRead with
  | none =>
    rw [exec_case_eq hs rfl] at h
    cases h
    rfl
  | some f =>
    rw [exec_case_of_shortRead hs] at h
    cases h

/-- The rule of one row of R99's table: the selector matches it, and POLL and the row itself do what the case does. -/
theorem pollRow_rule {s t : State} {c : PollCase} {code mask : Selector} (hrow : ⟨c, code, mask⟩ ∈ pollRows)
    (hs : s.shortRead = none) (hc : s.pollCase = c) (ht : s.afterCase c = t) :
    s.selector &&& mask = code ∧ ∀ i, (i = .poll ∨ i = c.instr) → exec i s = .next t := by
  refine ⟨State.selector_and_mask hrow hc, fun i hi => ?_⟩
  have hcase : exec c.instr s = .next t := ht ▸ exec_case_eq hs hc
  obtain rfl | rfl := hi
  · rw [exec_poll_eq_case, hc, hcase]
  · exact hcase

theorem State.sync_of_meets {s : State} {c : PollCase} (h : s.meets c) : s.core.sync = c.sync := by
  cases c <;> exact h.1

/-- `pollRow_rule` where the row's condition holds and the bytes are delivered. -/
theorem pollRow_rule_of_meets {s t : State} {c : PollCase} {code mask : Selector} (hrow : ⟨c, code, mask⟩ ∈ pollRows)
    (hd : s.delivers c.sync.need) (h : s.meets c) (ht : s.afterCase c = t) :
    s.selector &&& mask = code ∧ ∀ i, (i = .poll ∨ i = c.instr) → exec i s = .next t := by
  rw [← State.sync_of_meets h] at hd
  exact pollRow_rule hrow (State.shortRead_eq_none hd) (State.pollCase_of_meets hd h) ht

/-- `pollRow_rule` where the queue holds too few bytes: the deferral writes the response only. -/
theorem pollRow_rule_of_lt {s : State} {c : PollCase} {code mask : Selector} (hrow : ⟨c, code, mask⟩ ∈ pollRows)
    (hlt : s.q.length < s.core.sync.need) (hc : s.core.sync.deferral = c) :
    s.selector &&& mask = code ∧
    ∀ i, (i = .poll ∨ i = c.instr) → exec i s = .next { s with rsp := some ⟨.ok, .consumed 0⟩ } := by
  subst hc
  refine pollRow_rule hrow (State.shortRead_of_lt hlt) (State.pollCase_of_lt hlt) ?_
  cases s.core.sync <;> rfl

/-! ### The searching cases -/

/-- Settles O11, by the row of POLL_U_DEFER. -/
theorem pollUDeferChangesNothing : Obligations.PollUDeferChangesNothing := by
  intro s hs hq
  have hlt : s.q.length < s.core.sync.need := by simp [hs, hq, SyncState.need]
  exact pollRow_rule_of_lt (c := .uDefer) (by decide) hlt (by rw [hs, SyncState.deferral])

/-- Settles O12, by the row of POLL_U_START. -/
theorem pollUStartOpensCandidate : Obligations.PollUStartOpensCandidate := by
  intro s rest hs hq hd
  refine pollRow_rule_of_meets (c := .uStart) (by decide) hd ⟨hs, rest, hq⟩ ?_
  simp [State.afterCase, hq]

/-- Settles O13, by the row of POLL_U_DISCARD. -/
theorem pollUDiscardDropsByte : Obligations.PollUDiscardDropsByte := by
  intro s b rest hs hq hb hd
  refine pollRow_rule_of_meets (c := .uDiscard) (by decide) hd ⟨hs, b, rest, hb, hq⟩ ?_
  simp [State.afterCase, hq]

/-- Settles O14, by the row of POLL_S_DEFER. -/
theorem pollSDeferKeepsCursor : Obligations.PollSDeferKeepsCursor := by
  intro s hs hq
  have hlt : s.q.length < s.core.sync.need := by simp [hs, hq, SyncState.need]
  exact pollRow_rule_of_lt (c := .sDefer) (by decide) hlt (by rw [hs, SyncState.deferral])

/-- Settles O15, by the row of POLL_S_ADVANCE, whose condition does not name the byte. -/
theorem pollSAdvanceMovesCursor : Obligations.PollSAdvanceMovesCursor := by
  intro s b rest cur' hs hcur hq hd
  have hlt : s.core.cur.val < 24 := by omega
  have hnext : curNext s.core.cur = cur' := Fin.ext (by rw [curNext_val hlt, hcur])
  refine pollRow_rule_of_meets (c := .sAdvance) (by decide) hd ⟨hs, by simp [hq], hlt⟩ ?_
  simp [State.afterCase, hq, hnext]

/-- Settles O16, by the row of POLL_S_END_OK. -/
theorem pollSEndOkEntersSynced : Obligations.PollSEndOkEntersSynced := by
  intro s rest hs hcur hq hd
  refine pollRow_rule_of_meets (c := .sEndOk) (by decide) hd ⟨hs, hcur, rest, hq⟩ ?_
  simp [State.afterCase, hq]

/-- Settles O17, by the row of POLL_S_END_FAIL. -/
theorem pollSEndFailDropsCandidate : Obligations.PollSEndFailDropsCandidate := by
  intro s b rest hs hcur hq hb hd
  refine pollRow_rule_of_meets (c := .sEndFail) (by decide) hd ⟨hs, hcur, b, rest, hb, hq⟩ ?_
  simp [State.afterCase, hq]

/-! ### POLL as a whole -/

/-- Settles O25: the response and the queue are the selected case's, whose size is what the sync state needs or 0. -/
theorem pollRespondsBytesConsumed : Obligations.PollRespondsBytesConsumed := by
  intro s t h
  rw [exec_poll_next h]
  have hsize := s.pollCase_size
  rw [SyncState.need_eq] at hsize
  refine ⟨s.pollCase.size, rfl, ?_, rfl, fun hs => ?_, fun hs => ?_⟩
  · rw [hsize]
    split_ifs <;> omega
  · rw [hsize, if_pos hs]
  · rw [hsize, if_neg hs]

theorem frameOf_append (F : Frame) (rest : List Byte) : frameOf (F.toList ++ rest) = F :=
  frameOf_of_toList_eq_take (List.take_left' F.length_toList).symm

/-- Up to the threshold the run counter's successor is the number itself (R36, R37). -/
theorem oosNext_eq_ofNat {oos : Fin (Config.oosMax + 1)} (h : oos.val ≤ 10) :
    oosNext oos = Fin.ofNat 12 (oos.val + 1) := by
  have hlt : oos.val + 1 < 12 := by omega
  exact Fin.ext ((oosNext_val (by omega)).trans (Nat.mod_eq_of_lt hlt).symm)

/-- Under a row's condition the pseudocode of R120 and R150 takes the path of the row's case. -/
theorem pollText_of_meets {s : State} {c : PollCase} (h : s.meets c) (hoos : s.core.sync = .synced → s.core.oos.val ≤ 10) :
    pollText s.core s.q = (c.effect s.q s.core, s.q.drop c.size, c.size) := by
  cases c with
  | uDefer =>
    obtain ⟨hs, hq⟩ := h
    simp [pollText, hs, hq]
  | uStart =>
    obtain ⟨hs, rest, hq⟩ := h
    simp [pollText, hs, hq]
  | uDiscard =>
    obtain ⟨hs, b, rest, hb, hq⟩ := h
    simp [pollText, hs, hq, hb]
  | sDefer =>
    obtain ⟨hs, hq⟩ := h
    simp [pollText, hs, hq]
  | sAdvance =>
    obtain ⟨hs, hq, hcur⟩ := h
    obtain ⟨b, rest, hq⟩ := List.exists_cons_of_ne_nil hq
    simp [pollText, hs, hq, hcur, curNext]
  | sEndOk =>
    obtain ⟨hs, hcur, rest, hq⟩ := h
    simp [pollText, hs, hq, hcur]
  | sEndFail =>
    obtain ⟨hs, hcur, b, rest, hb, hq⟩ := h
    simp [pollText, hs, hq, hcur, hb]
  | yDefer =>
    obtain ⟨hs, hlen⟩ := h
    simp [pollText, hs, hlen]
  | yValid =>
    obtain ⟨hs, F, rest, hq, hF⟩ := h
    simp [pollText, hs, hq, frameOf_append, hF, CoreState.decodeFrame]
  | yInvalid =>
    obtain ⟨hs, hle, F, rest, hq, hF⟩ := h
    have hover : ¬ 10 ≤ s.core.oos.val := by omega
    simp [pollText, hs, hq, frameOf_append, hF, hover, oosNext_eq_ofNat (hoos hs), CoreState.countLost]
  | yResync =>
    obtain ⟨hs, hgt, F, rest, hq, hF⟩ := h
    have hover : 10 ≤ s.core.oos.val := Nat.le_of_lt_succ hgt
    simp [pollText, hs, hq, frameOf_append, hF, hover, oosNext_eq_ofNat (hoos hs), CoreState.countLost]

/-- Settles O24: the row whose condition holds is the case POLL runs and the path the pseudocode takes. -/
theorem pollFollowsPseudocode : Obligations.PollFollowsPseudocode := by
  refine ⟨fun w hw => ?_, fun s hoos hd => ?_⟩
  · obtain ⟨-, hpoll, -⟩ := decodeFollowsOpcodeField w
    exact hpoll (by omega)
  · obtain ⟨c, h⟩ := s.exists_meets
    have hc := State.pollCase_of_meets hd h
    rw [exec_poll_eq_case, hc, exec_case_eq (State.shortRead_eq_none hd) hc, pollText_of_meets h hoos]
    rfl

end Sys2Proof.Machine
end

section
/-! Proofs about the Frame Validator: validity (41_validate.md R151) and the four cases of POLL in SYNCED (R152 to R156). -/

open Sys2Proof.Claims

namespace Sys2Proof.Machine

/-- Settles O18: the Boolean test is on the two marker bytes. -/
theorem validityIsTheTwoMarkers : Obligations.ValidityIsTheTwoMarkers := Frame.valid_iff

/-- Settles O19, by the row of POLL_Y_DEFER. -/
theorem pollYDeferReadsNothing : Obligations.PollYDeferReadsNothing := by
  intro s hs hlen
  have hlt : s.q.length < s.core.sync.need := by rwa [hs]
  exact pollRow_rule_of_lt (c := .yDefer) (by decide) hlt (by rw [hs, SyncState.deferral])

/-- A case that reads a frame takes it off the head of the queue and answers 25. -/
theorem State.afterCase_frame {s : State} {c : PollCase} {F : Frame} {rest : List Byte} (hq : s.q = F.toList ++ rest)
    (hsize : c.size = 25) : s.afterCase c =
      { s with core := c.effect (F.toList ++ rest) s.core, q := rest, rsp := some ⟨.ok, .consumed 25⟩ } := by
  have hrest : (F.toList ++ rest).drop 25 = rest := List.drop_left' F.length_toList
  rw [State.afterCase, hsize, hq, hrest]
  rfl

/-- Settles O20, by the row of POLL_Y_VALID, which decodes the frame at the head of the queue. -/
theorem pollYValidCountsAndDecodes : Obligations.PollYValidCountsAndDecodes := by
  intro s F rest hs hq hF hd
  refine pollRow_rule_of_meets (c := .yValid) (by decide) hd ⟨hs, F, rest, hq, hF⟩ ?_
  rw [State.afterCase_frame hq rfl, PollCase.effect, frameOf_append]
  rfl

/-- Settles O21, by the row of POLL_Y_INVALID, with the run counter below its last value. -/
theorem pollYInvalidCountsOnly : Obligations.PollYInvalidCountsOnly := by
  intro s F rest oos' hs hq hF hd hle hoos
  have hnext : oosNext s.core.oos = oos' := Fin.ext (by rw [oosNext_val (by omega), hoos])
  refine pollRow_rule_of_meets (c := .yInvalid) (by decide) hd ⟨hs, hle, F, rest, hq, hF⟩ ?_
  rw [State.afterCase_frame hq rfl, PollCase.effect, CoreState.countLost, hnext]

/-- Settles O22, by the row of POLL_Y_RESYNC, with the run counter going from 10 to 11. -/
theorem pollYResyncDropsSync : Obligations.PollYResyncDropsSync := by
  intro s F rest hs hq hF hd hoos
  have hover : s.core.oos.val + 1 > 10 := by simp [hoos]
  have hnext : oosNext s.core.oos = 11 := by rw [hoos]; decide
  refine pollRow_rule_of_meets (c := .yResync) (by decide) hd ⟨hs, hover, F, rest, hq, hF⟩ ?_
  rw [State.afterCase_frame hq rfl, PollCase.effect, CoreState.countLost, hnext]

end Sys2Proof.Machine
end

section
/-! Proofs about the channel decoder: the analog channels as groups of stream bits (20_memory.md R64, 42_decode.md R181,
R182), and what the flag byte gives (R185, R186). -/

namespace Sys2Proof.Machine

/-! ### The payload -/

/-- A packed list is the sum of its digits, each shifted to its place. -/
theorem packLE_eq_sum {w : Nat} (l : List (BitVec w)) :
    packLE l = ∑ b ∈ Finset.range l.length, (l.getD b 0).toNat <<< (w * b) := by
  induction l with
  | nil => simp
  | cons d l ih =>
    rw [packLE_cons, ih, List.length_cons, Finset.sum_range_succ', Finset.mul_sum, Nat.add_comm]
    simp [Nat.shiftLeft_eq, Nat.mul_add, Nat.pow_add, Nat.mul_comm, Nat.mul_assoc]

theorem Frame.payloadList_length (F : Frame) : F.payloadList.length = 22 := by simp [Frame.payloadList]

theorem Frame.payloadList_getD (F : Frame) {b : Nat} (hb : b < 22) :
    F.payloadList.getD b 0 = F.toList.getD (1 + b) 0 := by
  rw [Frame.payloadList, List.getD_eq_getElem?_getD, List.getElem?_take_of_lt hb, List.getElem?_drop]
  rfl

/-- R64's sum. -/
theorem Frame.payload_eq_sum (F : Frame) :
    F.payload = ∑ b ∈ Finset.range 22, (F.toList.getD (1 + b) 0).toNat <<< (8 * b) := by
  rw [Frame.payload, packLE_eq_sum, F.payloadList_length]
  exact Finset.sum_congr rfl fun b hb => by rw [F.payloadList_getD (Finset.mem_range.mp hb)]

theorem Frame.payload_testBit (F : Frame) {i : Nat} (hi : i < 176) : F.payload.testBit i = F.streamBit i := by
  have hbyte : i / 8 < 22 := by omega
  rw [Frame.payload, packLE_testBit (by decide), F.payloadList_getD hbyte, Frame.streamBit]

/-- Stream bit `8 * b + r` is bit `r` of byte `1 + b`. -/
theorem Frame.streamBit_of_byte (F : Frame) {b r : Nat} (hb : 1 + b < 25) (hr : r < 8) :
    F.streamBit (8 * b + r) = F[1 + b].getLsbD r := by
  have hdiv : (8 * b + r) / 8 = b := by omega
  have hmod : (8 * b + r) % 8 = r := by omega
  simp [Frame.streamBit, hdiv, hmod, hb]

/-! ### The analog channels -/

theorem Frame.analog_toNat (F : Frame) (k : Nat) : (F.analog k).toNat = (F.payload >>> (11 * k)) &&& 0x7FF := by
  rw [Frame.analog, BitVec.toNat_ofNat]
  exact (Nat.and_two_pow_sub_one_eq_mod _ 11).symm

theorem Frame.analog_getLsbD (F : Frame) {k j : Nat} (hk : k < 16) (hj : j < 11) :
    (F.analog k).getLsbD j = F.streamBit (11 * k + j) := by
  have hi : 11 * k + j < 176 := by omega
  rw [← F.payload_testBit hi, Frame.analog, BitVec.getLsbD_ofNat, Nat.testBit_shiftRight]
  simp [hj]

/-- Settles O47, from the payload's bits and from its sum. -/
theorem analogChannelIsElevenStreamBits : Obligations.AnalogChannelIsElevenStreamBits := by
  intro F k hk
  refine ⟨fun j hj => F.analog_getLsbD hk hj, ?_⟩
  rw [F.analog_toNat, F.payload_eq_sum]

/-- The sixteen groups of eleven cover the 176 stream bits, each once. -/
theorem Frame.analog_eq_iff_streamBit_eq (F G : Frame) :
    (∀ k < 16, F.analog k = G.analog k) ↔ ∀ i < 176, F.streamBit i = G.streamBit i := by
  constructor
  · intro h i hi
    have hk : i / 11 < 16 := by omega
    have hj : i % 11 < 11 := Nat.mod_lt i (by decide)
    rw [← Nat.div_add_mod i 11, ← F.analog_getLsbD hk hj, ← G.analog_getLsbD hk hj, h _ hk]
  · intro h k hk
    refine BitVec.eq_of_getLsbD_eq fun j (hj : j < 11) => ?_
    rw [F.analog_getLsbD hk hj, G.analog_getLsbD hk hj]
    exact h _ (by omega)

/-- The bytes 1 to 22 are the 176 stream bits. -/
theorem Frame.payloadBytes_eq_iff_streamBit_eq (F G : Frame) :
    (∀ j : Fin 25, 1 ≤ j.val → j.val ≤ 22 → F[j.val] = G[j.val]) ↔ ∀ i < 176, F.streamBit i = G.streamBit i := by
  constructor
  · intro h i hi
    have hb : 1 + i / 8 < 25 := by omega
    have hr : i % 8 < 8 := Nat.mod_lt i (by decide)
    have hbyte : F[1 + i / 8] = G[1 + i / 8] := h ⟨1 + i / 8, hb⟩ (Nat.le_add_right 1 _) (by dsimp only; omega)
    rw [← Nat.div_add_mod i 8, F.streamBit_of_byte hb hr, G.streamBit_of_byte hb hr, hbyte]
  · rintro h ⟨j, hlt⟩ (hge : 1 ≤ j) (hle : j ≤ 22)
    obtain ⟨b, rfl⟩ := Nat.exists_eq_add_of_le hge
    refine BitVec.eq_of_getLsbD_eq fun r hr => ?_
    rw [← F.streamBit_of_byte hlt hr, ← G.streamBit_of_byte hlt hr]
    exact h _ (by omega)

/-- Settles O50: both sides say that the 176 stream bits agree. -/
theorem decoderConsumesExactlyThePayload : Obligations.DecoderConsumesExactlyThePayload := by
  intro F G
  rw [F.payloadBytes_eq_iff_streamBit_eq, ← F.analog_eq_iff_streamBit_eq, Fin.forall_iff]
  refine forall₂_congr fun k hk => ?_
  rw [← F.channels_analog hk, ← G.channels_analog hk]

/-! ### The flag byte -/

/-- One bit of a byte as a slot's value. -/
theorem slot_of_bit (b : Byte) (i : Nat) :
    (b.extractLsb' i 1).setWidth 11 = if b.getLsbD i then 1#11 else 0#11 := by
  refine BitVec.eq_of_getLsbD_eq fun j _ => ?_
  cases hbit : b.getLsbD i with
  | false => cases j <;> simp [hbit]
  | true => cases j <;> simp [hbit]

theorem digital17_eq (flags : Byte) : digital17 flags = if flags.getLsbD 0 then 1 else 0 := slot_of_bit flags 0

theorem digital18_eq (flags : Byte) : digital18 flags = if flags.getLsbD 1 then 1 else 0 := slot_of_bit flags 1

/-- Settles O49: each slot is one bit of byte 23, and the status is the branch that bits 3 and 2 take. -/
theorem flagByteGivesDigitalAndFailsafe : Obligations.FlagByteGivesDigitalAndFailsafe := by
  intro F
  refine ⟨?_, ?_, fun h3 => ?_, fun h3 h2 => ?_, fun h3 h2 => ?_⟩
  · rw [F.channels_sixteen, digital17_eq, Frame.flags]
  · rw [F.channels_seventeen, digital18_eq, Frame.flags]
  · rw [Frame.failsafe, Frame.flags, failsafeOf, if_pos h3]
  · rw [Frame.failsafe, Frame.flags, failsafeOf, if_neg (Bool.eq_false_iff.mp h3), if_pos h2]
  · rw [Frame.failsafe, Frame.flags, failsafeOf, if_neg (Bool.eq_false_iff.mp h3), if_neg (Bool.eq_false_iff.mp h2)]

end Sys2Proof.Machine
end

section
/-! Proofs about the accessors (43_access.md): what each answers, given once, and that the Channel Set is zero and the
failsafe status OK before the first valid frame (R211, R214). -/

open Sys2Proof.Claims

namespace Sys2Proof.Machine

/-! ### What the accessors answer -/

/-- Responding writes the last response and nothing else. -/
theorem State.respond_eq (s : State) (err : Err) (data : RspData) :
    s.respond err data = { s with rsp := some ⟨err, data⟩ } := rfl

section
variable (s : State)

theorem exec_nop : exec .nop s = .next (s.respond .ok .empty) := rfl

theorem exec_rdChannels : exec .rdChannels s = .next (s.respond .ok (.channels s.core.ch)) := rfl

theorem exec_rdFailsafe : exec .rdFailsafe s = .next (s.respond .ok (.failsafe s.core.fs)) := rfl

theorem exec_rdStats :
    exec .rdStats s = .next (s.respond .ok (.stats s.core.nValid s.core.nLost s.core.nResync)) := rfl

theorem exec_rdSync :
    exec .rdSync s = .next (s.respond .ok (.status s.core.sync s.core.cur s.core.oos)) := rfl

theorem exec_reserved : exec .reserved s = .next (s.respond .illegalOp .zero) := rfl

end

/-- An index in range reads its slot. -/
theorem answerSlot_of_lt {idx : ChannelIndex} (h : idx.toNat < 18) (s : State) :
    answerSlot idx s = .next (s.respond .ok (.channel (s.core.ch[idx.toNat]'h))) := by
  have hslot : s.core.slot? idx = some (s.core.ch[idx.toNat]'h) := Vector.getElem?_eq_getElem h
  simp only [answerSlot, hslot, answerWith]

/-- An index out of range reads no slot. -/
theorem answerSlot_of_ge {idx : ChannelIndex} (h : 18 ≤ idx.toNat) (s : State) :
    answerSlot idx s = .next (s.respond .indexRange .zero) := by
  have hslot : s.core.slot? idx = none := Vector.getElem?_eq_none h
  simp only [answerSlot, hslot, State.respondError]

theorem exec_rdChannel (idx : ChannelIndex) (s : State) : exec (.rdChannel idx) s = answerSlot idx s := rfl

theorem exec_rdChannelErr (idx : ChannelIndex) (s : State) : exec (.rdChannelErr idx) s = answerSlot idx s := rfl

/-! ### Before the first valid frame -/

theorem reset_zeroBeforeFirstFrame : ZeroBeforeFirstFrame CoreState.reset := fun _ => ⟨rfl, rfl⟩

theorem CoreState.RecordsKept.nValid {c d : CoreState} (h : c.RecordsKept d) : d.nValid = c.nValid :=
  congrFun h.stat .valid

theorem CoreState.RecordsKept.zeroBeforeFirstFrame {c d : CoreState} (h : c.RecordsKept d)
    (hc : ZeroBeforeFirstFrame c) : ZeroBeforeFirstFrame d := by
  intro hd
  rw [h.ch, h.fs]
  exact hc (h.nValid ▸ hd)

/-- A valid frame makes `nValid` positive; an invalid one writes neither the Channel Set, nor `fs`, nor `nValid`. -/
theorem CoreState.FrameCounted.zeroBeforeFirstFrame {c d : CoreState} {q : List Byte} (h : c.FrameCounted q d)
    (hc : ZeroBeforeFirstFrame c) : ZeroBeforeFirstFrame d := by
  cases h with
  | valid F =>
    intro hd
    rw [CoreState.decodeFrame_nValid] at hd
    exact absurd hd (Nat.succ_ne_zero c.nValid)
  | invalid => exact hc
  | resync => exact hc

theorem step_zeroBeforeFirstFrame {s t : State} (hs : ZeroBeforeFirstFrame s.core) (h : step s = .next t) :
    ZeroBeforeFirstFrame t.core := by
  cases hrst : s.nextInput.rst with
  | true => exact step_core_of_reset hrst h ▸ reset_zeroBeforeFirstFrame
  | false =>
    obtain hkept | ⟨-, -, hcount⟩ := step_records hrst h
    · exact hkept.zeroBeforeFirstFrame hs
    · exact hcount.zeroBeforeFirstFrame hs

/-! ### The obligations -/

/-- Settles O29: a step writes the Channel Set and `fs` only by a reset or together with `nValid + 1`. -/
theorem rdChannelsReturnsChannelSet : Obligations.RdChannelsReturnsChannelSet := by
  refine ⟨fun w hlo hhi => ?_, exec_rdChannels, reset_zeroBeforeFirstFrame, fun s t => step_zeroBeforeFirstFrame,
    fun s hs h0 => ?_, exec_rdChannels State.reset⟩
  · obtain ⟨-, -, hop2, -⟩ := decodeFollowsOpcodeField w
    exact hop2 (by omega)
  · obtain ⟨hch, -⟩ := hs h0
    rw [exec_rdChannels, hch, State.respond_eq]

/-- Settles O28: `op` is 0, and NOP only responds. -/
theorem nopOnlyResponds : Obligations.NopOnlyResponds := by
  refine ⟨fun w hhi => ?_, exec_nop⟩
  obtain ⟨hop0, -⟩ := decodeFollowsOpcodeField w
  exact hop0 (by omega)

/-- Settles O30: an index in range reads its slot, and the invariant's last clause bounds slots 16 and 17. -/
theorem rdChannelReturnsSlot : Obligations.RdChannelReturnsSlot := by
  refine ⟨fun w hlo hhi => ?_, fun s idx h => ⟨?_, fun hinv h16 => ?_⟩⟩
  · obtain ⟨-, -, -, hop3, -⟩ := decodeFollowsOpcodeField w
    exact hop3 (by omega) (by omega)
  · rw [exec_rdChannel, answerSlot_of_lt h, State.respond_eq]
  · obtain ⟨-, -, -, -, -, hdigital⟩ := hinv
    exact hdigital ⟨idx.toNat, h⟩ h16

/-- Settles O31: an index out of range reads no slot. -/
theorem rdChannelOutOfRangeIsError : Obligations.RdChannelOutOfRangeIsError := by
  refine ⟨fun w hlo hhi => ?_, fun s idx h => ?_⟩
  · obtain ⟨-, -, -, -, hop3, -⟩ := decodeFollowsOpcodeField w
    exact hop3 (by omega) (by omega)
  · rw [exec_rdChannelErr, answerSlot_of_ge h, State.respond_eq]

/-- Settles O32: the response is `fs`, which is OK before the first valid frame. -/
theorem rdFailsafeReturnsStatus : Obligations.RdFailsafeReturnsStatus := by
  refine ⟨fun w hlo hhi => ?_, exec_rdFailsafe, fun s hs h0 => ?_, exec_rdFailsafe State.reset,
    fun life => ⟨rfl, rfl, rfl⟩⟩
  · obtain ⟨-, -, -, -, -, hop4, -⟩ := decodeFollowsOpcodeField w
    exact hop4 (by omega)
  · obtain ⟨-, hfs⟩ := hs h0
    rw [exec_rdFailsafe, hfs, State.respond_eq]

/-- Settles O33: the response is the three counters, each true at the port while it fits its field. -/
theorem rdStatsReturnsCounters : Obligations.RdStatsReturnsCounters := by
  refine ⟨fun w hlo hhi => ?_, exec_rdStats, exec_rdStats State.reset, fun k n life => statField_toNat⟩
  obtain ⟨-, -, -, -, -, -, hop5, -⟩ := decodeFollowsOpcodeField w
  exact hop5 (by omega)

/-- Settles O34: the response is sync, cur and oos, all of code 0 after reset. -/
theorem rdSyncReturnsStatus : Obligations.RdSyncReturnsStatus := by
  refine ⟨fun w hlo hhi => ?_, exec_rdSync, exec_rdSync State.reset, by decide⟩
  obtain ⟨-, -, -, -, -, -, -, hop6, -⟩ := decodeFollowsOpcodeField w
  exact hop6 (by omega)

/-- Settles O35: `op` is 7, and the reserved request only responds. -/
theorem reservedRequestIsIllegalOp : Obligations.ReservedRequestIsIllegalOp := by
  refine ⟨fun w hlo => ?_, exec_reserved⟩
  have hw : w.toNat < 256 := w.isLt
  obtain ⟨-, -, -, -, -, -, -, -, hop7⟩ := decodeFollowsOpcodeField w
  exact hop7 (by omega)

end Sys2Proof.Machine
end

section
/-! Proofs about errors and faults (60_exceptions.md): the one error each instruction raises (R241, R242, R246), and the
short read that ends a POLL (R243). -/

namespace Sys2Proof.Machine

/-! ### The error an instruction raises -/

/-- The error an instruction's response carries, in whatever state it answers one (R241, R242); tied to `exec` by
`exec_next_of_raisedErr_eq_ok` and `exec_of_raisedErr_ne_ok`. -/
def raisedErr : Instr → Err
  | .rdChannel idx | .rdChannelErr idx => if 18 ≤ idx.toNat then .indexRange else .ok
  | .reserved => .illegalOp
  | _ => .ok

theorem raisedErr_eq_indexRange_iff (i : Instr) :
    raisedErr i = .indexRange ↔
      ∃ idx : ChannelIndex, 18 ≤ idx.toNat ∧ (i = .rdChannel idx ∨ i = .rdChannelErr idx) := by
  cases i with
  | rdChannel idx | rdChannelErr idx => simp [raisedErr]
  | _ => simp [raisedErr]

theorem raisedErr_eq_illegalOp_iff (i : Instr) : raisedErr i = .illegalOp ↔ i = .reserved := by
  cases i with
  | rdChannel idx | rdChannelErr idx => simp only [raisedErr]; split_ifs <;> simp
  | _ => simp [raisedErr]

/-- `PollCase.instr` undoes `Instr.pollCase?`. -/
theorem eq_instr_of_pollCase? {i : Instr} {c : PollCase} (h : i.pollCase? = some c) : i = c.instr := by
  cases i <;> cases h <;> rfl

/-- Everything a case row that gives a next state can do. -/
theorem exec_case_next {c : PollCase} {s t : State} (h : exec c.instr s = .next t) : t = s.afterCase c := by
  cases hs : s.shortRead with
  | none =>
    rw [exec_case_eq hs (exec_case_selected h)] at h
    cases h
    rfl
  | some f =>
    rw [exec_case_of_shortRead hs] at h
    cases h

/-- An instruction that raises no error responds OK wherever it gives a next state. -/
theorem exec_next_of_raisedErr_eq_ok {i : Instr} {s t : State} (hi : raisedErr i = .ok) (h : exec i s = .next t) :
    ∃ data, t.rsp = some ⟨.ok, data⟩ := by
  cases hc : i.pollCase? with
  | some c =>
    obtain rfl := eq_instr_of_pollCase? hc
    exact exec_case_next h ▸ ⟨_, rfl⟩
  | none =>
    cases i with
    | nop | rdChannels | rdFailsafe | rdStats | rdSync => cases h; exact ⟨_, rfl⟩
    | poll => exact exec_poll_next h ▸ ⟨_, rfl⟩
    | rdChannel idx | rdChannelErr idx =>
      have hidx : idx.toNat < 18 := by simpa [raisedErr] using hi
      cases (answerSlot_of_lt hidx s).symm.trans h
      exact ⟨_, rfl⟩
    | reserved => cases hi
    | _ => cases hc

/-- An instruction that raises an error answers it with data 0, and writes nothing else, in every state (R246). -/
theorem exec_of_raisedErr_ne_ok {i : Instr} (hi : raisedErr i ≠ .ok) (s : State) :
    exec i s = .next (s.respond (raisedErr i) .zero) := by
  cases he : raisedErr i with
  | ok => exact absurd he hi
  | indexRange =>
    obtain ⟨idx, hidx, rfl | rfl⟩ := (raisedErr_eq_indexRange_iff i).mp he
    · exact answerSlot_of_ge hidx s
    · exact answerSlot_of_ge hidx s
  | illegalOp =>
    obtain rfl := (raisedErr_eq_illegalOp_iff i).mp he
    exact exec_reserved s

/-- Settles O37: the response carries the error of the instruction, which decides the two conditions. -/
theorem errorResponsesRecordNothing : Obligations.ErrorResponsesRecordNothing := by
  intro i s t e d h hrsp
  by_cases hi : raisedErr i = .ok
  · obtain ⟨data, ht⟩ := exec_next_of_raisedErr_eq_ok hi h
    cases ht.symm.trans hrsp
    exact ⟨hi ▸ raisedErr_eq_indexRange_iff i, hi ▸ raisedErr_eq_illegalOp_iff i, absurd rfl, rfl, rfl⟩
  · cases (exec_of_raisedErr_ne_ok hi s).symm.trans h
    cases hrsp
    exact ⟨raisedErr_eq_indexRange_iff i, raisedErr_eq_illegalOp_iff i, fun _ => ⟨rfl, rfl⟩, rfl, rfl⟩

/-! ### The short read -/

theorem State.read_eq_error {s : State} {n k : Nat} (ha : n ≤ s.q.length) (hk : s.deliver = some k) (hlt : k < n) :
    s.read n = .error (.hostFault (.shortRead n k)) := by
  have hlen : (s.offered n).length = k := by
    simp only [State.offered, hk, Option.getD_some, List.length_take]
    omega
  rw [State.read, dif_neg (by omega), hlen]

theorem State.shortRead_of_deliver_lt {s : State} {k : Nat} (ha : s.core.sync.need ≤ s.q.length)
    (hk : s.deliver = some k) (hlt : k < s.core.sync.need) :
    s.shortRead = some (.hostFault (.shortRead s.core.sync.need k)) := by
  rw [State.shortRead, if_pos (s.enough_iff.mpr ha), State.read_eq_error ha hk hlt]

/-- Settles O26: POLL is the row of its case, and a short read is the fault of every case row. -/
theorem shortReadIsHostFault : Obligations.ShortReadIsHostFault := by
  intro s k ha hk hlt
  rw [exec_poll_eq_case]
  exact exec_case_of_shortRead (State.shortRead_of_deliver_lt ha hk hlt) s.pollCase

end Sys2Proof.Machine
end

section
/-! Proofs about a reset step (70_reset_and_hazards.md R270, R271, R272). -/

namespace Sys2Proof.Machine

/-- Every slot of the Channel Set is 0 after reset (R45). -/
theorem CoreState.reset_slot (i : Fin 18) : CoreState.reset.ch[i.val] = 0 :=
  Vector.getElem_replicate i.isLt

/-- A reset step as one update: the presented request, and the cap on a Read, decide no field of the core, of the queue or
of the response (R271). -/
theorem step_of_reset_input {s : State} {h : HostInput} {rest : List HostInput} (hi : s.inputs = h :: rest)
    (hrst : h.rst = true) :
    step s = .next ⟨CoreState.reset, s.q ++ h.feed, h.deliver, rest, none, s.life + 1⟩ := by
  have hnext : s.nextInput = h := s.nextInput_cons hi
  rw [step_reset (hnext ▸ hrst), State.takeReset, State.present, hnext, hi, List.tail_cons]

/-- Settles O9: a reset step takes up the input and then resets, whatever request the input holds. -/
theorem resetStepWinsAndKeepsQueue : Obligations.ResetStepWinsAndKeepsQueue := by
  intro s h rest hi hrst
  exact ⟨_, step_of_reset_input hi hrst, rfl, rfl, rfl, rfl, rfl, rfl, CoreState.reset_slot, rfl, rfl, rfl, rfl, rfl⟩

end Sys2Proof.Machine
end

section
/-! Proofs about the codes of instructions: a code decodes to the instruction it was made from (30_encoding.md R90, R91,
R99, R100, R104). -/

namespace Sys2Proof

/-! ### Request words -/

@[simp] theorem reqOp_requestWord (op : BitVec 3) (idx : ChannelIndex) : reqOp (requestWord op idx) = op := by
  rw [reqOp, requestWord, BitVec.extractLsb'_append_eq_left]

@[simp] theorem reqIdx_requestWord (op : BitVec 3) (idx : ChannelIndex) : reqIdx (requestWord op idx) = idx := by
  rw [reqIdx, requestWord, BitVec.extractLsb'_append_eq_right]

/-- A request word is its two fields. -/
theorem requestWord_fields (w : RequestWord) : requestWord (reqOp w) (reqIdx w) = w := by
  apply BitVec.eq_of_toNat_eq
  rw [requestWord, BitVec.toNat_append, ← Nat.shiftLeft_add_eq_or_of_lt (reqIdx w).isLt, Nat.shiftLeft_eq, reqOp_eq_ofNat,
    reqIdx_eq_ofNat, BitVec.toNat_ofNat, BitVec.toNat_ofNat]
  have hw : w.toNat < 256 := w.isLt
  omega

/-- `0xE0` keeps `op` alone. -/
theorem and_opMask (w : RequestWord) : w &&& 0xE0#8 = requestWord (reqOp w) 0 := by
  have hidx : reqIdx (w &&& 0xE0#8) = 0 := by
    have hmask : (0xE0#8).extractLsb' 0 5 = 0#5 := by decide
    rw [reqIdx, BitVec.extractLsb'_and, hmask, BitVec.and_zero]
    rfl
  rw [← requestWord_fields (w &&& 0xE0#8), reqOp_and_opMask, hidx]

theorem decode_rdChannelWord (idx : ChannelIndex) : decode (requestWord 0b011#3 idx) = decodeChannelRead idx := by
  simp [decode]

theorem encodeRequest_decodeChannelRead (idx : ChannelIndex) :
    encodeRequest (decodeChannelRead idx) = requestWord 0b011#3 idx := by
  obtain h | h := decodeChannelRead_cases idx
  · rw [h, encodeRequest]
  · rw [h, encodeRequest]

theorem wellFormed_rdChannel_iff (idx : ChannelIndex) : WellFormed (.rdChannel idx) ↔ idx.toNat < 18 :=
  decide_eq_true_iff

theorem wellFormed_rdChannelErr_iff (idx : ChannelIndex) : WellFormed (.rdChannelErr idx) ↔ 18 ≤ idx.toNat :=
  decide_eq_true_iff

theorem decodeChannelRead_of_lt {idx : ChannelIndex} (h : idx.toNat < 18) : decodeChannelRead idx = .rdChannel idx :=
  if_pos h

theorem decodeChannelRead_of_ge {idx : ChannelIndex} (h : 18 ≤ idx.toNat) : decodeChannelRead idx = .rdChannelErr idx :=
  if_neg (Nat.not_lt.mpr h)

theorem decodeChannelRead_wellFormed (idx : ChannelIndex) : WellFormed (decodeChannelRead idx) := by
  obtain h | h := Nat.lt_or_ge idx.toNat 18
  · rw [decodeChannelRead_of_lt h]
    exact (wellFormed_rdChannel_iff idx).mpr h
  · rw [decodeChannelRead_of_ge h]
    exact (wellFormed_rdChannelErr_iff idx).mpr h

/-- A well-formed request is what its word decodes to. -/
theorem decode_encodeRequest {i : Instr} (hi : WellFormed i) (hr : i.isRequest = true) :
    decode (encodeRequest i) = i := by
  cases i with
  | rdChannel idx =>
    rw [encodeRequest, decode_rdChannelWord, decodeChannelRead_of_lt ((wellFormed_rdChannel_iff idx).mp hi)]
  | rdChannelErr idx =>
    rw [encodeRequest, decode_rdChannelWord, decodeChannelRead_of_ge ((wellFormed_rdChannelErr_iff idx).mp hi)]
  | nop | poll | rdChannels | rdFailsafe | rdStats | rdSync | reserved => decide
  | _ => cases hr

/-- Outside RD_CHANNEL a word decodes as the word of its `op` with `idx = 0`. -/
theorem decode_eq_decode_op {w : RequestWord} (h : reqOp w ≠ 0b011#3) : decode w = decode (requestWord (reqOp w) 0) :=
  (decode_eq_of_reqOp_eq (reqOp_requestWord _ 0) h).symm

/-- Outside RD_CHANNEL, decoding the word of an `op` gives a well-formed request with that word. -/
theorem decode_opWord : ∀ op : BitVec 3, op ≠ 0b011#3 → WellFormed (decode (requestWord op 0)) ∧
    encodeRequest (decode (requestWord op 0)) = requestWord op 0 := by decide

theorem decode_wellFormed (w : RequestWord) : WellFormed (decode w) := by
  by_cases h : reqOp w = 0b011#3
  · rw [decode_of_rdChannel_op ((reqOp_eq_three_iff w).mp h)]
    exact decodeChannelRead_wellFormed _
  · rw [decode_eq_decode_op h]
    exact (decode_opWord _ h).1

/-- The word of a decoded RD_CHANNEL is the word it was decoded from. -/
theorem encodeRequest_decode_of_rdChannel {w : RequestWord} (h : reqOp w = 0b011#3) : encodeRequest (decode w) = w := by
  rw [decode_of_rdChannel_op ((reqOp_eq_three_iff w).mp h), encodeRequest_decodeChannelRead, ← h, requestWord_fields]

/-- The word of the request a word decodes to has the same `op`. -/
theorem reqOp_encodeRequest_decode (w : RequestWord) : reqOp (encodeRequest (decode w)) = reqOp w := by
  by_cases h : reqOp w = 0b011#3
  · rw [encodeRequest_decode_of_rdChannel h]
  · rw [decode_eq_decode_op h, (decode_opWord _ h).2, reqOp_requestWord]

/-! ### Poll cases -/

theorem selectCase_encodeCase (c : PollCase) : selectCase (encodeCase c) = some c := by
  cases c <;> decide

/-! ### The obligations -/

/-- Settles O1: the fourteen words, each run through the decoding procedure. -/
theorem specTableWordsDecode : Obligations.SpecTableWordsDecode := by
  unfold Obligations.SpecTableWordsDecode
  decide

/-- A well-formed instruction is what its code decodes to, a request by R100 and a poll case by R99. -/
theorem decodeCode_encode {i : Instr} (hi : WellFormed i) : decodeCode (encode i) = some i := by
  cases hc : i.pollCase? with
  | some c =>
    rw [encode, hc]
    simp only [decodeCode, selectCase_encodeCase, Option.map_some, Machine.eq_instr_of_pollCase? hc]
  | none =>
    rw [encode, hc]
    exact congrArg some (decode_encodeRequest hi (by simp [Instr.isRequest, hc]))

/-- Settles O4: decoding undoes encoding for requests and poll cases alike, so no two instructions share a code; and the
word of a decoded request keeps `op`, and for RD_CHANNEL `idx`. -/
theorem decodeEncodeRoundTrip : Obligations.DecodeEncodeRoundTrip := by
  refine ⟨fun i => decodeCode_encode, fun i rest hi hr => ?_, fun w => ⟨decode_wellFormed w, Machine.decode_isRequest w,
    ?_, fun hop => ?_⟩, fun i j hi hj h => ?_⟩
  · rw [decodeBytes, decode_encodeRequest hi hr]
  · rw [and_opMask, and_opMask, reqOp_encodeRequest_decode]
  · exact encodeRequest_decode_of_rdChannel ((reqOp_eq_three_iff w).mpr hop)
  · apply Option.some_injective
    rw [← decodeCode_encode hi, h, decodeCode_encode hj]

end Sys2Proof
end

section
/-! Proofs about a step of the machine (60_exceptions.md R251): what it runs, what it can do, and when it completes
(R243, R245); and that a request other than POLL only responds (43_access.md R218). -/

open Sys2Proof.Claims

namespace Sys2Proof.Machine

/-! ### What a step runs -/

theorem State.present_cons {s : State} {h : HostInput} {rest : List HostInput} (hi : s.inputs = h :: rest) :
    s.present = { s with q := s.q ++ h.feed, deliver := h.deliver, inputs := rest } := by
  rw [State.present, s.nextInput_cons hi, hi, List.tail_cons]

theorem State.present_nil {s : State} (hi : s.inputs = []) : s.present = { s with deliver := none } := by
  simp [State.present, s.nextInput_nil hi, hi, HostInput.idle]

theorem HostInput.instr_of_no_req {h : HostInput} (hr : h.req = none) : h.instr = .nop := by
  simp [HostInput.instr, hr]

/-- Settles O7: the step takes up the input and runs the decoded word. -/
theorem stepRunsDecodedRequest : Obligations.StepRunsDecodedRequest := by
  intro s h rest w hi hrst hr
  have hnext : s.nextInput = h := s.nextInput_cons hi
  rw [step_request (hnext ▸ hrst), hnext, HostInput.instr_of_req hr, State.present_cons hi]

/-- Settles O8: without a request word the step runs NOP, which only responds. -/
theorem stepWithoutRequestIsNop : Obligations.StepWithoutRequestIsNop := by
  refine ⟨fun s h rest hi hrst hr => ?_, fun s hi => ?_⟩
  · have hnext : s.nextInput = h := s.nextInput_cons hi
    rw [step_request (hnext ▸ hrst), hnext, HostInput.instr_of_no_req hr, State.present_cons hi, exec_nop,
      State.respond_eq]
  · have hnext : s.nextInput = HostInput.idle := s.nextInput_nil hi
    have hnop : HostInput.idle.instr = .nop := HostInput.instr_of_no_req rfl
    rw [step_request (hnext ▸ rfl), hnext, hnop, State.present_nil hi, exec_nop, State.respond_eq]

/-! ### What a step can do -/

/-- Everything a step without a reset that gives a next state can do. -/
theorem step_next {s t : State} (hrst : s.nextInput.rst = false) (h : step s = .next t) :
    (s.nextInput.instr = .poll ∧ t = s.present.afterCase s.present.pollCase) ∨
    (s.nextInput.instr ≠ .poll ∧ ∃ err data, t = s.present.respond err data) := by
  rw [step_request hrst] at h
  by_cases hp : s.nextInput.instr = .poll
  · rw [hp] at h
    exact .inl ⟨hp, exec_poll_next h⟩
  · obtain ⟨err, data, hr⟩ := exec_request_only_responds s.nextInput.instr_isRequest hp s.present
    rw [hr] at h
    cases h
    exact .inr ⟨hp, err, data, rfl⟩

/-- S after a step that gives a next state: the reset values, the selected case's writes, or as before. -/
theorem step_next_core {s t : State} (h : step s = .next t) :
    (s.nextInput.rst = true ∧ t.core = CoreState.reset) ∨
    (s.nextInput.rst = false ∧ s.nextInput.instr = .poll ∧
      t.core = s.present.pollCase.effect s.present.q s.core) ∨
    (s.nextInput.rst = false ∧ t.core = s.core) := by
  cases hrst : s.nextInput.rst with
  | true => exact .inl ⟨rfl, step_core_of_reset hrst h⟩
  | false =>
    obtain ⟨hp, rfl⟩ | ⟨-, err, data, rfl⟩ := step_next hrst h
    · exact .inr (.inl ⟨rfl, hp, rfl⟩)
    · exact .inr (.inr ⟨rfl, rfl⟩)

/-! ### When a step completes -/

/-- Where no read is short, POLL does what its case does. -/
theorem exec_poll_of_shortRead_eq_none {s : State} (hs : s.shortRead = none) :
    exec .poll s = .next (s.afterCase s.pollCase) := by
  rw [exec_poll_eq_case, exec_case_eq hs rfl]

/-- A read that is delivered whenever there are enough bytes for it is not short. -/
theorem State.shortRead_eq_none_of_imp {s : State}
    (hd : s.core.sync.need ≤ s.q.length → s.delivers s.core.sync.need) : s.shortRead = none := by
  obtain hlt | hle := Nat.lt_or_ge s.q.length s.core.sync.need
  · exact State.shortRead_of_lt hlt
  · exact State.shortRead_eq_none (hd hle)

theorem exec_poll_ne_refused (s : State) (r : Refusal) : exec .poll s ≠ .refused r := by
  cases hs : s.shortRead with
  | none => rw [exec_poll_of_shortRead_eq_none hs]; nofun
  | some f => rw [exec_poll_eq_case, exec_case_of_shortRead hs]; nofun

/-- Settles O39: a reset and a request other than POLL always complete, and POLL does unless its read is short. -/
theorem stepCompletesUnderContract : Obligations.StepCompletesUnderContract := by
  refine ⟨fun s hd => ?_, fun s r => ?_⟩
  · cases hrst : s.nextInput.rst with
    | true => exact ⟨_, step_reset hrst⟩
    | false =>
      rw [step_request hrst]
      by_cases hp : s.nextInput.instr = .poll
      · rw [hp]
        exact ⟨_, exec_poll_of_shortRead_eq_none (State.shortRead_eq_none_of_imp (hd hrst hp))⟩
      · obtain ⟨err, data, hr⟩ := exec_request_only_responds s.nextInput.instr_isRequest hp s.present
        exact ⟨_, hr⟩
  · cases hrst : s.nextInput.rst with
    | true => rw [step_reset hrst]; nofun
    | false =>
      rw [step_request hrst]
      by_cases hp : s.nextInput.instr = .poll
      · rw [hp]
        exact exec_poll_ne_refused _ r
      · obtain ⟨err, data, hr⟩ := exec_request_only_responds s.nextInput.instr_isRequest hp s.present
        rw [hr]
        nofun

/-! ### The one fault -/

/-- A short read returns what the Byte Source's cap lets through. -/
theorem State.deliver_of_offered_lt {s : State} {n : Nat} (ha : n ≤ s.q.length) (hlt : (s.offered n).length < n) :
    s.deliver = some (s.offered n).length := by
  cases hk : s.deliver with
  | none =>
    have hd : s.delivers n := fun k hk' => by rw [hk] at hk'; cases hk'
    rw [State.offered_eq_take hd, List.length_take] at hlt
    omega
  | some k =>
    have hlen : (s.offered n).length = min k n := by
      simp only [State.offered, hk, Option.getD_some, List.length_take]
      omega
    rw [hlen] at hlt ⊢
    congr 1
    omega

/-- A case row faults on a short read alone. -/
theorem shortRead_of_exec_case_fault {c : PollCase} {s : State} {f : Fault} (h : exec c.instr s = .fault f) :
    s.shortRead = some f := by
  cases hs : s.shortRead with
  | some g =>
    rw [exec_case_of_shortRead hs] at h
    cases h
    rfl
  | none =>
    by_cases hc : s.pollCase = c
    · rw [exec_case_eq hs hc] at h
      cases h
    · obtain ⟨a, ha⟩ := exec_case_eq_whenSelected c s
      simp [ha, whenSelected, hs, hc] at h

/-- An instruction that faults is POLL or a case row, on a short read. -/
theorem exec_fault {i : Instr} {s : State} {f : Fault} (h : exec i s = .fault f) :
    PollLike i ∧ s.shortRead = some f := by
  by_cases hp : i = .poll
  · rw [hp, exec_poll_eq_case] at h
    exact ⟨.inl hp, shortRead_of_exec_case_fault h⟩
  · cases hc : i.pollCase? with
    | some c =>
      rw [eq_instr_of_pollCase? hc] at h
      exact ⟨.inr (by simp [hc]), shortRead_of_exec_case_fault h⟩
    | none =>
      obtain ⟨err, data, hr⟩ := exec_request_only_responds (by simp [Instr.isRequest, hc]) hp s
      rw [hr] at h
      cases h

/-- Settles O38: only a read can fault, and a short read is the fault of every case row. -/
theorem onlyPollFaults : Obligations.OnlyPollFaults := by
  refine ⟨fun i s f h => ?_, fun s k c ha hk hlt => exec_case_of_shortRead (State.shortRead_of_deliver_lt ha hk hlt) c⟩
  obtain ⟨hi, hs⟩ := exec_fault h
  obtain ⟨ha, hlt, hf⟩ := State.shortRead_some hs
  exact ⟨hi, ha, _, State.deliver_of_offered_lt ha hlt, hlt, hf⟩

/-! ### Requests other than POLL -/

/-- The response of a request other than POLL is a function of S. -/
theorem exec_request_responds_by_core {i : Instr} (hi : i.isRequest = true) (hp : i ≠ .poll) (c : CoreState) :
    ∃ r, ∀ s : State, s.core = c → exec i s = .next { s with rsp := some r } := by
  cases i with
  | nop => exact ⟨_, fun s _ => exec_nop s⟩
  | poll => exact absurd rfl hp
  | rdChannels => exact ⟨_, fun s hs => hs ▸ exec_rdChannels s⟩
  | rdChannel idx | rdChannelErr idx =>
    obtain h | h := Nat.lt_or_ge idx.toNat 18
    · exact ⟨_, fun s hs => hs ▸ answerSlot_of_lt h s⟩
    · exact ⟨_, fun s _ => answerSlot_of_ge h s⟩
  | rdFailsafe => exact ⟨_, fun s hs => hs ▸ exec_rdFailsafe s⟩
  | rdStats => exact ⟨_, fun s hs => hs ▸ exec_rdStats s⟩
  | rdSync => exact ⟨_, fun s hs => hs ▸ exec_rdSync s⟩
  | reserved => exact ⟨_, fun s _ => exec_reserved s⟩
  | _ => cases hi

/-- Settles O36: each response depends on S alone, which no request other than POLL writes. -/
theorem accessorsAreRepeatable : Obligations.AccessorsAreRepeatable := by
  refine ⟨fun i j s hi hip hj hjp => ?_, fun s idx => ⟨fun h => answerSlot_of_ge h s, fun h => answerSlot_of_lt h s⟩⟩
  obtain ⟨r, hr⟩ := exec_request_responds_by_core hi hip s.core
  obtain ⟨r', hr'⟩ := exec_request_responds_by_core hj hjp s.core
  exact ⟨r, r', hr s rfl, hr' _ rfl, hr _ rfl⟩

end Sys2Proof.Machine
end

section
/-! Proofs about what every step keeps: the frame of POLL by its case (40_sync.md, 41_validate.md), the state invariant
(10_state.md R38), and the range of the run counter (R37). -/

open Sys2Proof.Claims

namespace Sys2Proof

/-! ### What a poll case leaves unchanged -/

section
variable {c : PollCase} (q : List Byte) (d : Machine.CoreState)

theorem PollCase.effect_sync (h : c ≠ .uStart ∧ c ≠ .sEndOk ∧ c ≠ .sEndFail ∧ c ≠ .yResync) :
    (c.effect q d).sync = d.sync := by
  cases c <;> simp at h ⊢

theorem PollCase.effect_cur (h : c ≠ .uStart ∧ c ≠ .sAdvance ∧ c ≠ .sEndOk ∧ c ≠ .sEndFail ∧ c ≠ .yResync) :
    (c.effect q d).cur = d.cur := by
  cases c <;> simp at h ⊢

theorem PollCase.effect_oos (h : c ≠ .sEndOk ∧ c ≠ .yValid ∧ c ≠ .yInvalid ∧ c ≠ .yResync) :
    (c.effect q d).oos = d.oos := by
  cases c <;> simp at h ⊢

theorem PollCase.effect_decoded (h : c ≠ .yValid) :
    (c.effect q d).ch = d.ch ∧ (c.effect q d).fs = d.fs ∧ (c.effect q d).nValid = d.nValid := by
  cases c <;> simp at h ⊢

theorem PollCase.effect_nLost (h : c ≠ .yInvalid ∧ c ≠ .yResync) : (c.effect q d).nLost = d.nLost := by
  cases c <;> simp at h ⊢

theorem PollCase.effect_nResync (h : c ≠ .yResync) : (c.effect q d).nResync = d.nResync := by
  cases c <;> simp at h ⊢

end

end Sys2Proof

namespace Sys2Proof.Machine

/-- Everything POLL or a case row that gives a next state can do. -/
theorem exec_pollLike_next {i : Instr} {s t : State} (hi : PollLike i) (h : exec i s = .next t) :
    t = s.afterCase s.pollCase := by
  obtain rfl | hc := hi
  · exact exec_poll_next h
  · obtain ⟨c, hc⟩ := Option.ne_none_iff_exists'.mp hc
    rw [eq_instr_of_pollCase? hc] at h
    rw [exec_case_selected h]
    exact exec_case_next h

/-- While searching no frame is counted. -/
theorem State.pollCase_of_not_synced {s : State} (h : s.core.sync ≠ .synced) :
    s.pollCase ≠ .yValid ∧ s.pollCase ≠ .yInvalid ∧ s.pollCase ≠ .yResync :=
  ⟨fun hc => h (State.sync_of_pollCase hc), fun hc => h (State.sync_of_pollCase hc),
    fun hc => h (State.sync_of_pollCase hc)⟩

/-- Settles O27: the state after is the selected case's, whose writes are in `PollCase.effect`. -/
theorem pollFrameByCase : Obligations.PollFrameByCase := by
  intro i s t hi h
  obtain rfl := exec_pollLike_next hi h
  have hdecoded := PollCase.effect_decoded (c := s.pollCase) s.q s.core
  have hlost := PollCase.effect_nLost (c := s.pollCase) s.q s.core
  have hresync := PollCase.effect_nResync (c := s.pollCase) s.q s.core
  refine ⟨rfl, rfl, rfl, ?_, fun h1 h2 h3 h4 => PollCase.effect_sync s.q s.core ⟨h1, h2, h3, h4⟩,
    fun h1 h2 h3 h4 h5 => PollCase.effect_cur s.q s.core ⟨h1, h2, h3, h4, h5⟩,
    fun h1 h2 h3 h4 => PollCase.effect_oos s.q s.core ⟨h1, h2, h3, h4⟩, hdecoded, fun h1 h2 => hlost ⟨h1, h2⟩, hresync,
    fun hs => ?_⟩
  · rw [← s.pollCase_size, State.afterCase]
  · obtain ⟨hvalid, hinvalid, hres⟩ := State.pollCase_of_not_synced hs
    obtain ⟨hch, hfs, hnValid⟩ := hdecoded hvalid
    exact ⟨hch, hfs, hnValid, hlost ⟨hinvalid, hres⟩, hresync hres⟩

/-! ### The state invariant -/

/-- The clauses of R38 that the types do not give already. -/
theorem CoreState.inv_iff (c : CoreState) : c.Inv ↔
    (c.sync = .unsynced → c.cur.val = 0) ∧ (c.sync = .seekingEnd → 1 ≤ c.cur.val) ∧
    (c.sync = .synced → c.cur.val = 0 ∧ c.oos.val ≤ 10) ∧
    (∀ i : Fin 18, 16 ≤ i.val → c.ch[i.val] = 0 ∨ c.ch[i.val] = 1) := by
  have hcur : c.cur.val ≤ 24 := Nat.le_of_lt_succ c.cur_lt
  have hoos : c.oos.val ≤ 11 := Nat.le_of_lt_succ c.oos_lt
  have hch : ∀ i : Fin 16, (c.ch[i.val]).toNat ≤ 2047 := fun i => Nat.le_of_lt_succ (BitVec.isLt _)
  constructor
  · rintro ⟨hu, hs, hy, -, -, hd⟩
    exact ⟨hu, fun h => (hs h).1, hy, hd⟩
  · rintro ⟨hu, hs, hy, hd⟩
    exact ⟨hu, fun h => ⟨hs h, hcur⟩, hy, hoos, hch, hd⟩

/-- Settles O10: the reset values of R45, field by field. -/
theorem resetValuesOfCore : Obligations.ResetValuesOfCore :=
  ⟨rfl, rfl, rfl, CoreState.reset_slot, rfl, rfl, rfl, rfl⟩

/-- Settles O41: after reset the core is UNSYNCED with cursor 0, and every slot is 0. -/
theorem resetMeetsCoreInvariant : Obligations.ResetMeetsCoreInvariant :=
  (CoreState.inv_iff _).mpr ⟨fun _ => rfl, nofun, nofun, fun i _ => .inl (CoreState.reset_slot i)⟩

/-- Slots 16 and 17 of a decoded frame are 0 or 1 (R185). -/
theorem Frame.channels_digital (F : Frame) (i : Fin 18) (hi : 16 ≤ i.val) :
    F.channels[i.val] = 0 ∨ F.channels[i.val] = 1 := by
  have bit (b : Bool) : (if b then 1 else 0 : ChannelValue) = 0 ∨ (if b then 1 else 0 : ChannelValue) = 1 := by
    cases b
    · exact .inl rfl
    · exact .inr rfl
  obtain ⟨h16, h17, -⟩ := flagByteGivesDigitalAndFailsafe F
  have hcases : i.val = 16 ∨ i.val = 17 := by omega
  obtain h | h := hcases
  · simp only [h, h16]
    exact bit _
  · simp only [h, h17]
    exact bit _

/-- An invalid frame that forces no resync finds the run counter below the threshold (R155). -/
theorem State.oos_lt_of_yInvalid {s : State} (hc : s.pollCase = .yInvalid) : s.core.oos.val < 10 := by
  have hs : s.core.sync = .synced := State.sync_of_pollCase hc
  by_contra hoos
  rw [State.pollCase_eq, hs] at hc
  dsimp only at hc
  split_ifs at hc with hA hM hT
  exact hT (s.overThreshold_iff.mpr ⟨hs, by simpa using hA, by simpa using hM, by omega⟩)

theorem oosNext_le {oos : Fin (Config.oosMax + 1)} (h : oos.val < 10) : (oosNext oos).val ≤ 10 := by
  rw [oosNext_val (by omega)]
  omega

theorem curNext_pos (cur : Fin Config.cursorValues) : 1 ≤ (curNext cur).val := by
  unfold curNext
  split
  · exact Nat.succ_pos _
  · decide

/-- A poll case keeps the invariant in the sync state that selects it. -/
theorem PollCase.effect_keeps_inv {c : PollCase} {q : List Byte} {d : CoreState} (hs : d.sync = c.sync)
    (hoos : c = .yInvalid → d.oos.val < 10) (h : d.Inv) : (c.effect q d).Inv := by
  rw [CoreState.inv_iff] at h ⊢
  obtain ⟨-, -, hy, hdigital⟩ := id h
  cases c with
  | uDefer | uDiscard | sDefer | yDefer => exact h
  | uStart => exact ⟨nofun, fun _ => Nat.le_refl 1, nofun, hdigital⟩
  | sAdvance =>
    exact ⟨fun hu => absurd (hs.symm.trans hu) (by decide), fun _ => curNext_pos d.cur,
      fun hy => absurd (hs.symm.trans hy) (by decide), hdigital⟩
  | sEndOk => exact ⟨nofun, nofun, fun _ => ⟨rfl, Nat.zero_le 10⟩, hdigital⟩
  | sEndFail | yResync => exact ⟨fun _ => rfl, nofun, nofun, hdigital⟩
  | yValid =>
    obtain ⟨hcur, -⟩ := hy hs
    rw [PollCase.effect, CoreState.decodeFrame]
    exact ⟨fun _ => hcur, fun hseek => absurd (hs.symm.trans hseek) (by decide), fun _ => ⟨hcur, Nat.zero_le 10⟩,
      (frameOf q).channels_digital⟩
  | yInvalid =>
    obtain ⟨hcur, -⟩ := hy hs
    exact ⟨fun _ => hcur, fun hseek => absurd (hs.symm.trans hseek) (by decide),
      fun _ => ⟨hcur, oosNext_le (hoos rfl)⟩, hdigital⟩

/-- Settles O40: a reset gives the invariant, a POLL keeps it by its case, and no other request writes S. -/
theorem stepKeepsCoreInvariant : Obligations.StepKeepsCoreInvariant := by
  intro s t hinv h
  obtain ⟨-, ht⟩ | ⟨-, -, ht⟩ | ⟨-, ht⟩ := step_next_core h
  · rw [ht]
    exact resetMeetsCoreInvariant
  · rw [ht]
    exact PollCase.effect_keeps_inv s.present.pollCase_sync.symm State.oos_lt_of_yInvalid hinv
  · rwa [ht]

/-! ### The range of the run counter -/

/-- The run counter reaches 11 only by a resync (R37). -/
theorem PollCase.eq_yResync_of_effect_oos {c : PollCase} {q : List Byte} {d : CoreState}
    (hoos : c = .yInvalid → d.oos.val < 10) (hne : d.oos ≠ 11) (h : (c.effect q d).oos = 11) : c = .yResync := by
  cases c with
  | uDefer | uStart | uDiscard | sDefer | sAdvance | sEndFail | yDefer => exact absurd h hne
  | sEndOk => cases h
  | yValid =>
    rw [PollCase.effect, CoreState.decodeFrame_oos] at h
    cases h
  | yInvalid =>
    have hle : (oosNext d.oos).val ≤ 10 := oosNext_le (hoos rfl)
    rw [PollCase.effect, CoreState.countLost_oos] at h
    rw [h] at hle
    exact absurd hle (by decide)
  | yResync => rfl

/-- While searching only a successful end-marker check writes the run counter (R127). -/
theorem PollCase.effect_oos_of_searching {c : PollCase} {q : List Byte} {d : CoreState} (hs : c.sync ≠ .synced) :
    (c.effect q d).oos = d.oos ∨ (c = .sEndOk ∧ (c.effect q d).oos = 0) := by
  cases c with
  | sEndOk => exact .inr ⟨rfl, rfl⟩
  | yValid | yInvalid | yResync => exact absurd rfl hs
  | _ => exact .inl rfl

/-- Settles O42: the run counter after a POLL is its case's, and no other request writes it. -/
theorem outOfSyncElevenOnlyByResync : Obligations.OutOfSyncElevenOnlyByResync := by
  refine ⟨fun s t h hrst => ?_, fun s F rest hs hoos hq hF hd => ?_⟩
  · obtain ⟨hrst', -⟩ | ⟨-, hp, ht⟩ | ⟨-, ht⟩ := step_next_core h
    · rw [hrst] at hrst'
      cases hrst'
    · rw [ht]
      refine ⟨fun hne h11 => ?_, fun h11 hsearch => ?_⟩
      · have hc := PollCase.eq_yResync_of_effect_oos (State.oos_lt_of_yInvalid (s := s.present)) hne h11
        exact ⟨hp, hc, by rw [hc, PollCase.effect]⟩
      · rw [← State.present_core, ← State.pollCase_sync] at hsearch
        obtain hkept | ⟨hc, hzero⟩ := PollCase.effect_oos_of_searching hsearch
        · exact .inl (hkept.trans h11)
        · exact .inr ⟨hp, hc, hzero⟩
    · rw [ht]
      exact ⟨fun hne h11 => absurd h11 hne, fun h11 _ => .inl h11⟩
  · have hover : s.core.oos.val + 1 > 10 := by simp [hoos]
    have hnext : oosNext s.core.oos = s.core.oos := by rw [hoos]; decide
    refine (pollRow_rule_of_meets (c := .yResync) (code := 0b101001#6) (mask := 0b111011#6) (by decide) hd
      ⟨hs, hover, F, rest, hq, hF⟩ ?_).2
    rw [State.afterCase_frame hq rfl, PollCase.effect, CoreState.countLost, hnext]

/-! ### Bytes past the 25 oldest -/

theorem SyncState.need_le (x : SyncState) : x.need ≤ 25 := by
  cases x <;> decide

section
variable {s t : State}

theorem State.offered_congr {n : Nat} (hn : n ≤ 25) (hd : s.deliver = t.deliver) (hq : s.q.take 25 = t.q.take 25) :
    s.offered n = t.offered n := by
  have htake (q : List Byte) : q.take n = (q.take 25).take n := by rw [List.take_take, Nat.min_eq_left hn]
  rw [State.offered, State.offered, htake s.q, htake t.q, hq, hd]

/-- Two states that are offered the same bytes read the same bytes, or both read short. -/
theorem State.read_congr {n : Nat} (h : s.offered n = t.offered n) :
    (∃ bytes, s.read n = .ok (bytes, s.consume n) ∧ t.read n = .ok (bytes, t.consume n)) ∨
    (∃ f, s.read n = .error f ∧ t.read n = .error f) := by
  simp only [State.read, h]
  split
  · exact .inl ⟨_, rfl, rfl⟩
  · exact .inr ⟨_, rfl, rfl⟩

theorem State.enough_congr (hc : s.core = t.core) (hq : s.q.take 25 = t.q.take 25) : s.enough = t.enough := by
  have hlen := congrArg List.length hq
  rw [List.length_take, List.length_take] at hlen
  have hn := t.core.sync.need_le
  rw [Bool.eq_iff_iff, State.enough_iff, State.enough_iff, hc]
  omega

theorem State.atLast_congr (hc : s.core = t.core) : s.atLast = t.atLast := by rw [State.atLast, State.atLast, hc]

theorem State.markerMatch_congr (hc : s.core = t.core) (hd : s.deliver = t.deliver) (hq : s.q.take 25 = t.q.take 25) :
    s.markerMatch = t.markerMatch := by
  have hread (n : Nat) (hn : n ≤ 25) := State.read_congr (State.offered_congr hn hd hq)
  unfold State.markerMatch
  rw [hc, State.atLast_congr hc]
  cases t.core.sync with
  | unsynced | seekingEnd =>
    obtain ⟨bytes, hs, ht⟩ | ⟨f, hs, ht⟩ := hread 1 (by decide)
    · simp [hs, ht]
    · simp [hs, ht]
  | synced =>
    obtain ⟨bytes, hs, ht⟩ | ⟨f, hs, ht⟩ := hread Config.frameLen (Nat.le_refl 25)
    · simp only [hs, ht]
    · simp only [hs, ht]

theorem State.pollCase_of_selector_eq (h : s.selector = t.selector) : s.pollCase = t.pollCase := by
  simp only [State.pollCase, h]

end

/-- Settles O46: every part of the selector is made of S, the cap, and the 25 oldest bytes. -/
theorem availabilityPast25IsInvisible : Obligations.AvailabilityPast25IsInvisible := by
  intro s t hc hd hq
  have hsel : s.selector = t.selector := by
    simp only [State.selector, State.overThreshold, hc, State.enough_congr hc hq, State.atLast_congr hc,
      State.markerMatch_congr hc hd hq]
  have hlen := congrArg List.length hq
  rw [List.length_take, List.length_take] at hlen
  refine ⟨hsel, State.pollCase_of_selector_eq hsel, ?_⟩
  rw [State.bsAvailSaturated, State.bsAvailSaturated, Nat.min_comm, State.avail, State.avail, hlen, Nat.min_comm]

end Sys2Proof.Machine
end

section
/-! Proofs about the byte spans of the analog channels (42_decode.md R183): a channel is filled byte after byte. -/

namespace Sys2Proof.Machine

/-- Byte `p` of a frame holds the stream bits from `8 * p - 8` on. -/
theorem Frame.streamBit_eq_byte (F : Frame) {i r : Nat} {p : Fin 25} (hr : r < 8) (h : 8 + i = 8 * p.val + r) :
    F.streamBit i = F[p].getLsbD r := by
  obtain ⟨b, hb⟩ := Nat.exists_eq_add_of_le (show 1 ≤ p.val by omega)
  have hi : i = 8 * b + r := by omega
  rw [hi, F.streamBit_of_byte (hb ▸ p.isLt) hr]
  simp only [← hb, Fin.getElem_fin]

/-- Bit `j` of a slot that holds the field `hi..lo` of a byte. -/
theorem field_getLsbD (x : Byte) (hi lo : Nat) {j : Nat} (hj : j < 11) :
    ((x.extractLsb hi lo).setWidth 11).getLsbD j = (decide (j ≤ hi - lo) && x.getLsbD (lo + j)) := by
  simp [hj]

/-- Two slots that share no set bit add up without a carry. -/
theorem add_eq_or_of_disjoint {x y : ChannelValue} (h : ∀ j < 11, x.getLsbD j = false ∨ y.getLsbD j = false) :
    x + y = x ||| y := by
  refine BitVec.add_eq_or_of_and_eq_zero x y (BitVec.eq_of_getLsbD_eq fun j hj => ?_)
  obtain h | h := h j hj
  · simp [h]
  · simp [h]

/-- `x` holds the lowest `n` bits of analog channel `k`, and zeros above them. -/
def Frame.FillsTo (F : Frame) (k n : Nat) (x : ChannelValue) : Prop :=
  ∀ j < 11, x.getLsbD j = (decide (j < n) && F.streamBit (11 * k + j))

section
variable {F : Frame} {k n : Nat} {x : ChannelValue}

/-- The byte in which a channel begins, from its bit `r` on. -/
theorem Frame.fillsTo_first (p : Fin 25) {r : Nat} (hr : r < 8 := by decide)
    (hp : 8 + 11 * k = 8 * p.val + r := by decide) :
    F.FillsTo k (8 - r) ((F[p].extractLsb 7 r).setWidth 11) := by
  intro j hj
  rw [field_getLsbD _ _ _ hj]
  obtain hlt | hge := Nat.lt_or_ge j (8 - r)
  · rw [F.streamBit_eq_byte (p := p) (r := r + j) (by omega) (by omega)]
    simp [hlt, show j ≤ 7 - r by omega]
  · simp [show ¬ j ≤ 7 - r by omega, show ¬ j < 8 - r by omega]

/-- The next byte of a channel, from its bit 0 to its bit `hi`. -/
theorem Frame.FillsTo.add (h : F.FillsTo k n x) (p : Fin 25) {hi : Nat} (hhi : hi < 8 := by decide)
    (hp : 8 + (11 * k + n) = 8 * p.val := by decide) :
    F.FillsTo k (n + hi + 1) (x + (F[p].extractLsb hi 0).setWidth 11 <<< n) := by
  have hbyte {j : Nat} (hj : j < 11) : ((F[p].extractLsb hi 0).setWidth 11 <<< n).getLsbD j =
      (decide (n ≤ j ∧ j ≤ n + hi) && F.streamBit (11 * k + j)) := by
    rw [BitVec.getLsbD_shiftLeft, field_getLsbD _ _ _ (by omega)]
    by_cases hin : n ≤ j ∧ j ≤ n + hi
    · rw [F.streamBit_eq_byte (p := p) (r := j - n) (by omega) (by omega)]
      simp [hj, hin, show j - n ≤ hi by omega]
    · have hout : ¬ (n ≤ j ∧ j - n ≤ hi) := by omega
      by_cases hle : n ≤ j
      · simp [hin, show ¬ j - n ≤ hi from fun h => hout ⟨hle, h⟩]
      · simp [hin, Nat.not_le.mp hle]
  intro j hj
  rw [add_eq_or_of_disjoint, BitVec.getLsbD_or, h j hj, hbyte hj, ← Bool.and_or_distrib_right, ← Bool.decide_or]
  · congr 2
    simp only [eq_iff_iff]
    omega
  · intro i hi'
    rw [h i hi', hbyte hi']
    by_cases hin : i < n
    · exact .inr (by simp; omega)
    · exact .inl (by simp [hin])

theorem Frame.FillsTo.analog_eq (h : F.FillsTo k 11 x) (hk : k < 16 := by decide) : F.analog k = x := by
  refine BitVec.eq_of_getLsbD_eq fun j (hj : j < 11) => ?_
  rw [F.analog_getLsbD hk hj, h j hj]
  simp [hj]

end

/-- Settles O48: each channel is filled from its first byte on, byte after byte. -/
theorem analogChannelByteSpans : Obligations.AnalogChannelByteSpans := by
  intro F f
  exact ⟨((Frame.fillsTo_first 1).add 2).analog_eq,
    ((Frame.fillsTo_first 2).add 3).analog_eq,
    (((Frame.fillsTo_first 3).add 4).add 5).analog_eq,
    ((Frame.fillsTo_first 5).add 6).analog_eq,
    ((Frame.fillsTo_first 6).add 7).analog_eq,
    (((Frame.fillsTo_first 7).add 8).add 9).analog_eq,
    ((Frame.fillsTo_first 9).add 10).analog_eq,
    ((Frame.fillsTo_first 10).add 11).analog_eq,
    ((Frame.fillsTo_first 12).add 13).analog_eq,
    ((Frame.fillsTo_first 13).add 14).analog_eq,
    (((Frame.fillsTo_first 14).add 15).add 16).analog_eq,
    ((Frame.fillsTo_first 16).add 17).analog_eq,
    ((Frame.fillsTo_first 17).add 18).analog_eq,
    (((Frame.fillsTo_first 18).add 19).add 20).analog_eq,
    ((Frame.fillsTo_first 20).add 21).analog_eq,
    ((Frame.fillsTo_first 21).add 22).analog_eq⟩

end Sys2Proof.Machine
end

section
/-! Proofs about which bits of a frame are decoded (42_decode.md R188), Pack (R190), the frame as one 200-bit word
(30_encoding.md R101), and the widths of response data (R94). -/

open Sys2Proof.Claims

namespace Sys2Proof.Machine

/-! ### What the decoded values depend on -/

/-- The decoded values are made of the analog channels and of the flag byte's bits 0 to 3. -/
theorem Frame.decoded_congr {F G : Frame} (hanalog : ∀ k < 16, F.analog k = G.analog k)
    (hflags : ∀ i < 4, F.flags.getLsbD i = G.flags.getLsbD i) : F.channels = G.channels ∧ F.failsafe = G.failsafe := by
  constructor
  · have h17 : digital17 F.flags = digital17 G.flags := by rw [digital17_eq, digital17_eq, hflags 0 (by decide)]
    have h18 : digital18 F.flags = digital18 G.flags := by rw [digital18_eq, digital18_eq, hflags 1 (by decide)]
    rw [Frame.channels, Frame.channels, h17, h18]
    congr 1
    funext i
    split_ifs with hk
    · exact hanalog i.val hk
    · rfl
    · rfl
  · simp only [Frame.failsafe, failsafeOf, hflags 3 (by decide), hflags 2 (by decide)]

/-- Settles O51: bytes 1 to 22 give the analog channels, and bits 0 to 3 of byte 23 the rest. -/
theorem unreadFrameBitsDoNotMatter : Obligations.UnreadFrameBitsDoNotMatter := by
  intro F G hbytes hflags
  refine Frame.decoded_congr ((F.analog_eq_iff_streamBit_eq G).mpr ((F.payloadBytes_eq_iff_streamBit_eq G).mp hbytes))
    fun i hi => ?_
  have hbit := congrArg (·.getLsbD i) hflags
  simpa [Frame.flags, hi] using hbit

/-! ### Pack -/

section
variable (v : Vector ChannelValue 16) (g : Byte)

theorem pack_markersHold : MarkersHold (pack v g) := by simp [pack, MarkersHold]

theorem pack_flags : (pack v g).flags = g := by simp [pack, Frame.flags]

theorem pack_payloadByte {b : Nat} (hb : b < 22) : (pack v g)[1 + b]'(show 1 + b < 25 by omega) = packByte v b := by
  have h23 : 1 + b < 23 := by omega
  simp [pack, h23]

theorem packByte_getLsbD (b : Nat) {r : Nat} (hr : r < 8) :
    (packByte v b).getLsbD r = (packLE v.toList).testBit (8 * b + r) := by
  rw [packByte, BitVec.getLsbD_ofNat, Nat.testBit_shiftRight]
  simp [hr]

/-- Stream bit `i` of a packed frame is bit `i` of the packed values. -/
theorem pack_streamBit {i : Nat} (hi : i < 176) : (pack v g).streamBit i = (packLE v.toList).testBit i := by
  have hb : i / 8 < 22 := by omega
  have hr : i % 8 < 8 := Nat.mod_lt i (by decide)
  rw [← Nat.div_add_mod i 8, Frame.streamBit_of_byte _ (by omega) hr, pack_payloadByte v g hb, packByte_getLsbD v _ hr]

theorem pack_analog (k : Fin 16) : (pack v g).analog k.val = v[k.val] := by
  refine BitVec.eq_of_getLsbD_eq fun j (hj : j < 11) => ?_
  have hk := k.isLt
  have hdiv : (11 * k.val + j) / 11 = k.val := by omega
  have hmod : (11 * k.val + j) % 11 = j := by omega
  rw [Frame.analog_getLsbD _ hk hj, pack_streamBit v g (by omega), packLE_testBit (by decide)]
  simp [hdiv, hmod]

end

/-- Settles O52: the packed frame has both markers, its stream bits are the values' and its byte 23 the flag byte. -/
theorem packThenDecodeRecoversValues : Obligations.PackThenDecodeRecoversValues := by
  intro v g
  refine ⟨(Frame.valid_iff _).mpr (pack_markersHold v g), fun k => ?_, ?_, ?_, ?_⟩
  · rw [Frame.channels_analog _ k.isLt, pack_analog]
  · rw [Frame.channels_sixteen, pack_flags, digital17_eq]
  · rw [Frame.channels_seventeen, pack_flags, digital18_eq]
  · rw [Frame.failsafe, pack_flags, failsafeOf]

/-! ### The frame as one word -/

section
variable (F : Frame)

/-- Bit `8 * b + r` of the word is bit `r` of byte `b`. -/
theorem Frame.word_getLsbD {b r : Nat} (hb : b < 25) (hr : r < 8) : F.word.getLsbD (8 * b + r) = F[b].getLsbD r := by
  have hdiv : (8 * b + r) / 8 = b := by omega
  have hmod : (8 * b + r) % 8 = r := by omega
  have hlt : 8 * b + r < 200 := by omega
  rw [Frame.word, BitVec.getLsbD_ofNat, packLE_testBit (by decide), hdiv, hmod]
  simp [hlt, hb]

/-- The stream bits are the bits of the word from bit 8 on. -/
theorem Frame.word_getLsbD_eight_add {i : Nat} (hi : i < 176) : F.word.getLsbD (8 + i) = F.streamBit i := by
  have hsplit : 8 + i = 8 * (1 + i / 8) + i % 8 := by omega
  have hr : i % 8 < 8 := Nat.mod_lt i (by decide)
  rw [hsplit, F.word_getLsbD (by omega) hr, ← F.streamBit_of_byte (by omega) hr, Nat.div_add_mod]

theorem Frame.word_byte {b : Nat} (hb : b < 25) : F.word.extractLsb' (8 * b) 8 = F[b] := by
  refine BitVec.eq_of_getLsbD_eq fun r hr => ?_
  rw [BitVec.getLsbD_extractLsb', F.word_getLsbD hb hr]
  simp [hr]

theorem Frame.word_analog {k : Nat} (hk : k < 16) : F.word.extractLsb' (8 + 11 * k) 11 = F.analog k := by
  refine BitVec.eq_of_getLsbD_eq fun j hj => ?_
  rw [BitVec.getLsbD_extractLsb', Nat.add_assoc, F.word_getLsbD_eight_add (by omega), F.analog_getLsbD hk hj]
  simp [hj]

/-- Bit `r` of the flag byte in the word. -/
theorem Frame.word_flagBit {r : Nat} (hr : r < 8) : F.word.getLsbD (184 + r) = F.flags.getLsbD r :=
  F.word_getLsbD (b := 23) (by decide) hr

theorem Frame.word_flagField {r : Nat} (hr : r < 8) : F.word.extractLsb' (184 + r) 1 = F.flags.extractLsb' r 1 := by
  refine BitVec.eq_of_getLsbD_eq fun j hj => ?_
  obtain rfl : j = 0 := by omega
  simp [F.word_flagBit hr]

end

/-- Settles O53: byte `b` stands in bits `8 * b` to `8 * b + 7` of the word, so stream bit `i` is its bit `8 + i`. -/
theorem frameWordFields : Obligations.FrameWordFields := by
  intro F
  refine ⟨F.word_byte (b := 0) (by decide), fun k => ?_, ?_, ?_, ?_, F.word_byte (b := 24) (by decide)⟩
  · rw [F.word_analog k.isLt, F.channels_analog k.isLt]
  · rw [F.channels_sixteen, digital17, F.word_flagField (r := 0) (by decide)]
  · rw [F.channels_seventeen, digital18, F.word_flagField (r := 1) (by decide)]
  · rw [Frame.failsafe, failsafeOf, F.word_flagBit (r := 3) (by decide), F.word_flagBit (r := 2) (by decide)]

/-! ### The widths of response data -/

/-- A response's data word fits its width (R94), whatever an overflowed counter reads as. -/
theorem RspData.word_lt (d : RspData) (life : Nat) : d.word life < 2 ^ d.width := by
  cases d with
  | empty | zero => exact Nat.one_pos
  | consumed n => exact n.isLt
  | channels v =>
    have h := packLE_lt v.toList
    rwa [Vector.length_toList, Nat.mul_comm] at h
  | channel v => exact v.isLt
  | failsafe f => exact f.code.isLt
  | stats a b c =>
    have h := packLE_lt [statField .valid a life, statField .lost b life, statField .resync c life]
    rwa [Nat.mul_comm] at h
  | status x cur oos => exact (statusWord x cur oos).isLt

/-- Every width is at most the port's (R251). -/
theorem RspData.width_le (d : RspData) : d.width ≤ rspDataWidth := by
  have hfixed : 198 ≤ rspDataWidth := Nat.le_max_left _ _
  cases d with
  | empty | zero => exact Nat.zero_le _
  | consumed n => exact Nat.le_trans (by decide : 5 ≤ 198) hfixed
  | channels v => exact hfixed
  | channel v | status x cur oos => exact Nat.le_trans (by decide : 11 ≤ 198) hfixed
  | failsafe f => exact Nat.le_trans (by decide : 2 ≤ 198) hfixed
  | stats a b c => exact Nat.le_max_right _ _

/-- Settles O56: each datum is below `2 ^ width` by its type or its packing, and the port takes the two widest. -/
theorem responseDataFitsItsWidth : Obligations.ResponseDataFitsItsWidth :=
  ⟨fun d life => ⟨d.word_lt life, d.width_le⟩, rfl, rfl, fun _ => rfl, fun _ => rfl, fun _ => rfl, fun _ => rfl,
    fun _ _ _ => rfl, fun _ _ _ => rfl⟩

end Sys2Proof.Machine
end

section
/-! Proofs about several POLLs in a row: a frame counted once (41_validate.md R159) and decoded twice (42_decode.md R189),
the resync threshold (R157), and a successful search (40_sync.md R130). -/

open Sys2Proof.Claims

namespace Sys2Proof.Machine

/-! ### One POLL -/

/-- POLL in a state that meets a row's condition, the bytes delivered. -/
theorem exec_poll_of_meets {s : State} {c : PollCase} (hd : s.delivers s.core.sync.need) (h : s.meets c) :
    exec .poll s = .next (s.afterCase c) := by
  rw [exec_poll_of_shortRead_eq_none (State.shortRead_eq_none hd), State.pollCase_of_meets hd h]

/-- Settles O23: the case is POLL_Y_VALID by the frame's markers, else one of the two that count a lost frame. -/
theorem syncedFrameIsCountedOnce : Obligations.SyncedFrameIsCountedOnce := by
  intro s F rest hs hq hd
  have hd' : s.delivers s.core.sync.need := by rwa [hs]
  by_cases hF : MarkersHold F
  · refine ⟨_, exec_poll_of_meets hd' (c := .yValid) ⟨hs, F, rest, hq, hF⟩, fun _ => ?_, absurd hF⟩
    simp [State.afterCase]
  · obtain hover | hle := Nat.lt_or_ge 10 (s.core.oos.val + 1)
    · exact ⟨_, exec_poll_of_meets hd' (c := .yResync) ⟨hs, hover, F, rest, hq, hF⟩, fun h => absurd h hF,
        fun _ => ⟨rfl, rfl⟩⟩
    · exact ⟨_, exec_poll_of_meets hd' (c := .yInvalid) ⟨hs, hle, F, rest, hq, hF⟩, fun h => absurd h hF,
        fun _ => ⟨rfl, rfl⟩⟩

/-- Settles O54: both POLLs are POLL_Y_VALID on the same frame, which alone gives the Channel Set and `fs`. -/
theorem decodingTwiceIsIdempotent : Obligations.DecodingTwiceIsIdempotent := by
  intro s F rest hs hq hF hd
  have poll (u : State) (rest) (hu : u.core.sync = .synced) (huq : u.q = F.toList ++ rest) (hud : u.delivers 25) :=
    (pollYValidCountsAndDecodes u F rest hu huq hF hud).2 .poll (.inl rfl)
  exact ⟨_, _, poll s _ hs hq hd, poll _ rest hs rfl hd, rfl, rfl, rfl⟩

/-! ### A script of POLLs -/

theorem polls_succ (n : Nat) : polls (n + 1) = HostInput.request 0x20#8 :: polls n := List.replicate_succ

theorem polls_add (m n : Nat) : polls (m + n) = polls m ++ polls n := List.replicate_add m n _

/-- A presented POLL in a state that meets a row's condition does what the row's case does. -/
theorem step_poll_of_meets {s : State} {rest : List HostInput} {c : PollCase}
    (hi : s.inputs = HostInput.request 0x20#8 :: rest) (h : s.meets c) :
    ∃ t, step s = .next t ∧ t.core = c.effect s.q s.core ∧ t.q = s.q.drop c.size ∧ t.inputs = rest := by
  have hpoll : decode 0x20#8 = .poll := by decide
  have hfeed : s.q ++ (HostInput.request 0x20#8).feed = s.q := List.append_nil s.q
  rw [stepRunsDecodedRequest s _ rest _ hi rfl rfl, hpoll, hfeed]
  exact ⟨_, exec_poll_of_meets nofun h, rfl, rfl, rfl⟩

/-! ### The threshold -/

/-- Invalid frames up to the threshold are counted and leave the core SYNCED (R155). -/
theorem run_invalid_frames (frames : List Frame) {s : State} {rest : List Byte} {more : List HostInput}
    (hs : s.core.sync = .synced) (hoos : s.core.oos.val + frames.length ≤ 10) (hF : ∀ F ∈ frames, ¬ MarkersHold F)
    (hq : s.q = (frames.map (·.toList)).flatten ++ rest) (hi : s.inputs = polls frames.length ++ more) :
    ∃ t, run frames.length s = .next t ∧ t.core.sync = .synced ∧
      t.core.oos.val = s.core.oos.val + frames.length ∧ t.core.nLost = s.core.nLost + frames.length ∧
      t.core.nResync = s.core.nResync ∧ t.q = rest ∧ t.inputs = more := by
  induction frames generalizing s with
  | nil => exact ⟨s, rfl, hs, rfl, rfl, rfl, hq, hi⟩
  | cons F frames ih =>
    rw [List.length_cons] at hoos
    rw [List.map_cons, List.flatten_cons, List.append_assoc] at hq
    obtain ⟨u, hstep, hcore, huq, hui⟩ := step_poll_of_meets (c := .yInvalid) hi
      ⟨hs, by omega, F, _, hq, hF F List.mem_cons_self⟩
    have hnext : (oosNext s.core.oos).val = s.core.oos.val + 1 := oosNext_val (by omega)
    obtain ⟨t, hrun, hsync, hcount, hlost, hresync, htq, hti⟩ := ih (s := u)
      (by simp [hcore, hs]) (by simp [hcore, hnext]; omega) (fun G hG => hF G (List.mem_cons_of_mem F hG))
      (by rw [huq, hq]; exact List.drop_left' F.length_toList) hui
    refine ⟨t, (run_succ hstep).trans hrun, hsync, ?_, ?_, ?_, htq, hti⟩
    · rw [hcount, hcore, PollCase.effect, CoreState.countLost_oos, hnext, List.length_cons]
      omega
    · rw [hlost, hcore, PollCase.effect, CoreState.countLost_nLost, List.length_cons]
      omega
    · rw [hresync, hcore, PollCase.effect, CoreState.countLost_nResync]

/-- Settles O57: ten invalid frames take the run counter to 10, and the eleventh finds it past the threshold. -/
theorem thresholdIsElevenInvalidFrames : Obligations.ThresholdIsElevenInvalidFrames := by
  intro s frames rest more hs hoos hF hq hi
  refine ⟨fun hlen => ?_, fun hlen => ?_⟩
  · obtain ⟨t, hrun, hsync, hcount, hlost, hresync, -, -⟩ :=
      run_invalid_frames frames hs (by simp [hoos, hlen]) hF hq hi
    rw [hlen] at hrun hcount hlost
    exact ⟨t, hrun, hsync, by simpa [hoos] using hcount, hlost, hresync⟩
  · obtain rfl | ⟨frames, F, rfl⟩ := frames.eq_nil_or_concat'
    · cases hlen
    · have hlen' : frames.length = 10 := by simpa using hlen
      rw [List.length_append, List.length_singleton, polls_add, List.append_assoc] at hi
      rw [List.map_append, List.flatten_append, List.append_assoc] at hq
      obtain ⟨t, hrun, hsync, hcount, hlost, hresync, htq, hti⟩ := run_invalid_frames frames hs
        (by simp [hoos, hlen']) (fun G hG => hF G (List.mem_append_left _ hG)) hq hi
      rw [hlen'] at hrun hcount hlost
      have hover : t.core.oos.val + 1 > 10 := by simp [hcount, hoos]
      obtain ⟨u, hlast, hcore, -, -⟩ := step_poll_of_meets (c := .yResync) hti
        ⟨hsync, hover, F, rest, by simpa using htq, hF F (by simp)⟩
      refine ⟨u, (run_add hrun).trans (run_succ (n := 0) hlast), ?_, ?_, ?_⟩
      · rw [hcore, PollCase.effect]
      · simp [hcore, hlost]
      · simp [hcore, hresync]

/-! ### A successful search -/

/-- Bytes inside a candidate move the cursor and nothing else, whatever they are (R126). -/
theorem run_candidate_bytes (bytes : List Byte) {s : State} {rest : List Byte} {more : List HostInput}
    (hs : s.core.sync = .seekingEnd) (hcur : s.core.cur.val + bytes.length ≤ 24) (hq : s.q = bytes ++ rest)
    (hi : s.inputs = polls bytes.length ++ more) :
    ∃ t, run bytes.length s = .next t ∧ t.core = { s.core with cur := t.core.cur } ∧
      t.core.cur.val = s.core.cur.val + bytes.length ∧ t.q = rest ∧ t.inputs = more := by
  induction bytes generalizing s with
  | nil => exact ⟨s, rfl, rfl, rfl, hq, hi⟩
  | cons b bytes ih =>
    rw [List.length_cons] at hcur
    have hnext : (curNext s.core.cur).val = s.core.cur.val + 1 := curNext_val (by omega)
    obtain ⟨u, hstep, hcore, huq, hui⟩ := step_poll_of_meets (c := .sAdvance) hi ⟨hs, by simp [hq], by omega⟩
    obtain ⟨t, hrun, htcore, htcur, htq, hti⟩ := ih (s := u) (by simp [hcore, hs]) (by simp [hcore, hnext]; omega)
      (by simp [huq, hq]) hui
    refine ⟨t, (run_succ hstep).trans hrun, by rw [htcore, hcore, PollCase.effect], ?_, htq, hti⟩
    rw [htcur, hcore, PollCase.effect, hnext, List.length_cons]
    omega

/-- A frame with both markers is 23 bytes between them. -/
theorem Frame.toList_of_markersHold {F : Frame} (hF : MarkersHold F) :
    ∃ mid : List Byte, mid.length = 23 ∧ F.toList = 0x0F#8 :: (mid ++ [0x00#8]) := by
  obtain ⟨first, tail, hcons⟩ := List.exists_cons_of_length_eq_add_one F.length_toList
  have hlen : tail.length = 24 := by simpa [hcons] using F.length_toList
  obtain rfl | ⟨mid, last, rfl⟩ := tail.eq_nil_or_concat'
  · cases hlen
  · have hmid : mid.length = 23 := by simpa using hlen
    have h0 : F[0] = first := by simp [← Vector.getElem_toList, hcons]
    have h24 : F[24] = last := by simp [← Vector.getElem_toList, hcons, hmid]
    obtain ⟨hfirst, hlast⟩ := hF
    exact ⟨mid, hmid, by rw [hcons, ← h0, ← h24, hfirst, hlast]⟩

/-- Settles O59: the start marker, 23 bytes that only move the cursor to 24, and the end marker. -/
theorem searchTakesTwentyFivePolls : Obligations.SearchTakesTwentyFivePolls := by
  intro s F rest more hs hF hq hi
  obtain ⟨mid, hmid, hlist⟩ := Frame.toList_of_markersHold hF
  rw [hlist, List.cons_append, List.append_assoc] at hq
  obtain ⟨u, hstart, hucore, huq, hui⟩ :=
    step_poll_of_meets (c := .uStart) (rest := polls 23 ++ (polls 1 ++ more)) hi ⟨hs, _, hq⟩
  obtain ⟨v, hrun, hvcore, hvcur, hvq, hvi⟩ := run_candidate_bytes mid (s := u) (by simp [hucore])
    (by simp [hucore, hmid]) (by rw [huq, hq]; rfl) (by rw [hmid, hui])
  have hcur : v.core.cur.val = 24 := by simp [hvcur, hucore, hmid]
  obtain ⟨t, hend, htcore, htq, hti⟩ :=
    step_poll_of_meets (c := .sEndOk) (rest := more) hvi ⟨by rw [hvcore, hucore, PollCase.effect], hcur, rest, hvq⟩
  rw [hmid] at hrun
  refine ⟨t, (run_succ hstart).trans ((run_add hrun).trans (run_succ (n := 0) hend)), ?_, by rw [htq, hvq]; rfl, hti⟩
  rw [htcore, PollCase.effect, hvcore, hucore, PollCase.effect]

end Sys2Proof.Machine
end

section
/-! Proofs about runs under any requests: a stream with no start marker (40_sync.md R131), and the latency of the first
decode (70_reset_and_hazards.md R276). -/

open Sys2Proof.Claims

namespace Sys2Proof.Machine

/-! ### The host's script over a step -/

/-- What holds of every input of the script, and of an idle host, holds of the coming step's input. -/
theorem State.nextInput_of_forall {p : HostInput → Prop} {s : State} (hidle : p HostInput.idle)
    (h : ∀ i ∈ s.inputs, p i) : p s.nextInput := by
  cases hi : s.inputs with
  | nil => exact s.nextInput_nil hi ▸ hidle
  | cons i rest =>
    rw [s.nextInput_cons hi]
    exact h i (by simp [hi])

/-- A step uses up one input. -/
theorem step_next_inputs {s t : State} (h : step s = .next t) : t.inputs = s.inputs.tail := by
  cases hrst : s.nextInput.rst with
  | true =>
    rw [step_reset hrst] at h
    cases h
    rfl
  | false =>
    obtain ⟨-, rfl⟩ | ⟨-, err, data, rfl⟩ := step_next hrst h
    · rfl
    · rfl

theorem step_next_inputs_forall {p : HostInput → Prop} {s t : State} (h : step s = .next t) (hp : ∀ i ∈ s.inputs, p i) :
    ∀ i ∈ t.inputs, p i := by
  rw [step_next_inputs h]
  exact fun i hi => hp i (List.mem_of_mem_tail hi)

/-! ### A stream with no start marker -/

/-- The host resets nothing, caps no read, and feeds no start marker. -/
def HostInput.Markerless (h : HostInput) : Prop := h.rst = false ∧ h.deliver = none ∧ ∀ b ∈ h.feed, b ≠ 0x0F#8

/-- UNSYNCED, with no start marker queued or to come. -/
structure State.Markerless (s : State) : Prop where
  sync : s.core.sync = .unsynced
  q : ∀ b ∈ s.q, b ≠ 0x0F#8
  inputs : ∀ h ∈ s.inputs, h.Markerless

/-- A marker match in UNSYNCED is a start marker in the queue, whatever the Byte Source delivers. -/
theorem State.start_mem_of_markerMatch {s : State} (hs : s.core.sync = .unsynced) (hm : s.markerMatch = true) :
    0x0F#8 ∈ s.q := by
  simp only [State.markerMatch, hs] at hm
  split at hm
  · next bytes u hr =>
    obtain ⟨-, hb, -⟩ := State.read_ok hr
    have hfirst : bytes[0] = 0x0F#8 := beq_iff_eq.mp hm
    have hmem : bytes[0] ∈ s.q.take 1 := by simp [← hb]
    exact hfirst ▸ List.mem_of_mem_take hmem
  · cases hm

/-- With no start marker queued a POLL in UNSYNCED defers or discards. -/
theorem State.pollCase_of_no_start {s : State} (hs : s.core.sync = .unsynced) (hq : ∀ b ∈ s.q, b ≠ 0x0F#8) :
    s.pollCase = .uDefer ∨ s.pollCase = .uDiscard := by
  rw [State.pollCase_eq, hs]
  dsimp only
  split_ifs with hA hM
  · exact .inl rfl
  · exact absurd rfl (hq _ (State.start_mem_of_markerMatch hs hM))
  · exact .inr rfl

/-- Such a state steps, whatever the request, to another one with the same S. -/
theorem State.Markerless.exists_step {s : State} (h : s.Markerless) :
    ∃ t, step s = .next t ∧ t.core = s.core ∧ t.Markerless := by
  obtain ⟨hrst, hcap, hfeed⟩ : s.nextInput.Markerless := State.nextInput_of_forall ⟨rfl, rfl, nofun⟩ h.inputs
  have hq : ∀ b ∈ s.present.q, b ≠ 0x0F#8 := fun b hb => (List.mem_append.mp hb).elim (h.q b) (hfeed b)
  obtain ⟨t, ht⟩ := stepCompletesUnderContract.1 s fun _ _ _ k hk => by
    rw [State.present_deliver, hcap] at hk
    cases hk
  have hinputs := step_next_inputs_forall ht h.inputs
  refine ⟨t, ht, ?_⟩
  obtain ⟨-, rfl⟩ | ⟨-, err, data, rfl⟩ := step_next hrst ht
  · have hcore : s.present.pollCase.effect s.present.q s.core = s.core := by
      obtain hc | hc := State.pollCase_of_no_start (s := s.present) h.sync hq
      · rw [hc, PollCase.effect]
      · rw [hc, PollCase.effect]
    exact ⟨hcore, (congrArg CoreState.sync hcore).trans h.sync, fun b hb => hq b (List.mem_of_mem_drop hb), hinputs⟩
  · exact ⟨rfl, h.sync, hq, hinputs⟩

theorem State.Markerless.exists_run {s : State} (h : s.Markerless) (n : Nat) :
    ∃ t, run n s = .next t ∧ t.core = s.core ∧ t.Markerless := by
  induction n generalizing s with
  | zero => exact ⟨s, rfl, rfl, h⟩
  | succ n ih =>
    obtain ⟨u, hstep, hcore, hu⟩ := h.exists_step
    obtain ⟨t, hrun, htcore, ht⟩ := ih hu
    exact ⟨t, (run_succ hstep).trans hrun, htcore.trans hcore, ht⟩

/-- Settles O58: every step keeps S and the absence of a start marker. -/
theorem noStartMarkerStaysUnsynced : Obligations.NoStartMarkerStaysUnsynced := by
  intro n s hs _ hq hi
  have hmarkerless : s.Markerless := ⟨hs, hq, hi⟩
  obtain ⟨t, hrun, hcore, ht⟩ := hmarkerless.exists_run n
  exact ⟨t, hrun, hcore, State.pollCase_of_no_start ht.sync ht.q⟩

/-! ### The reads before the first decode -/

/-- The coming step is a POLL that reads, as `pollsThatRead` counts them. -/
abbrev State.PollReads (s : State) : Prop :=
  s.nextInput.rst = false ∧ s.nextInput.instr = .poll ∧ s.core.sync.need ≤ s.q.length + s.nextInput.feed.length

theorem pollsThatRead_succ {n : Nat} {s t : State} (h : step s = .next t) :
    pollsThatRead (n + 1) s = (if s.PollReads then 1 else 0) + pollsThatRead n t := by
  simp only [pollsThatRead, h]

/-- The fewest POLLs that read until one of them decodes a frame: 25 to find sync, and one more. -/
def CoreState.readsToDecode (c : CoreState) : Nat :=
  match c.sync with
  | .unsynced => 26
  | .seekingEnd => 26 - c.cur.val
  | .synced => 1

section
variable {c : CoreState}

theorem CoreState.readsToDecode_unsynced (h : c.sync = .unsynced) : c.readsToDecode = 26 := by
  rw [CoreState.readsToDecode, h]

theorem CoreState.readsToDecode_seekingEnd (h : c.sync = .seekingEnd) : c.readsToDecode = 26 - c.cur.val := by
  rw [CoreState.readsToDecode, h]

theorem CoreState.readsToDecode_synced (h : c.sync = .synced) : c.readsToDecode = 1 := by
  rw [CoreState.readsToDecode, h]

theorem CoreState.readsToDecode_le (c : CoreState) : c.readsToDecode ≤ 26 := by
  cases h : c.sync with
  | unsynced => exact Nat.le_of_eq (CoreState.readsToDecode_unsynced h)
  | seekingEnd => exact CoreState.readsToDecode_seekingEnd h ▸ Nat.sub_le 26 _
  | synced => exact CoreState.readsToDecode_synced h ▸ by decide

end

theorem curNext_le (cur : Fin Config.cursorValues) : (curNext cur).val ≤ cur.val + 1 := by
  have hcur : cur.val < 25 := cur.isLt
  obtain hlt | hge := Nat.lt_or_ge cur.val 24
  · exact Nat.le_of_eq (curNext_val hlt)
  · have hnext : (curNext cur).val < 25 := (curNext cur).isLt
    omega

/-- A poll case brings the first decode nearer by at most one read, and a deferral by none. -/
theorem PollCase.readsToDecode_le_effect {c : PollCase} {q : List Byte} {d : CoreState} (hs : d.sync = c.sync)
    (hlast : c = .sEndOk → d.cur.val = 24) :
    d.readsToDecode ≤ (c.effect q d).readsToDecode + (if c.size = 0 then 0 else 1) := by
  cases c with
  | uDefer | uDiscard | sDefer | yDefer => exact Nat.le_add_right _ _
  | uStart => exact d.readsToDecode_le
  | sAdvance =>
    have hnext := curNext_le d.cur
    rw [CoreState.readsToDecode_seekingEnd hs, CoreState.readsToDecode_seekingEnd (by exact hs), PollCase.effect]
    rw [PollCase.size, if_neg Nat.one_ne_zero]
    dsimp only
    omega
  | sEndOk =>
    rw [CoreState.readsToDecode_seekingEnd hs, hlast rfl]
    exact Nat.le_refl 2
  | sEndFail => exact Nat.le_succ_of_le d.readsToDecode_le
  | yValid | yInvalid | yResync =>
    rw [CoreState.readsToDecode_synced hs]
    exact Nat.le_add_left 1 _

/-- An end marker is read at the last position (R127). -/
theorem State.cur_of_sEndOk {s : State} (hc : s.pollCase = .sEndOk) : s.core.cur.val = 24 := by
  have hs : s.core.sync = .seekingEnd := State.sync_of_pollCase hc
  by_contra hcur
  have hL : s.atLast = false := Bool.eq_false_iff.mpr fun hL => hcur (s.atLast_iff.mp hL).2
  rw [State.pollCase_eq, hs] at hc
  dsimp only at hc
  split_ifs at hc

theorem SyncState.need_pos (x : SyncState) : 0 < x.need := by
  cases x <;> decide

/-- A step brings the first decode nearer by at most one read if it is a POLL that reads, and by none otherwise. -/
theorem step_readsToDecode {s t : State} (h : step s = .next t) :
    s.core.readsToDecode ≤ t.core.readsToDecode + (if s.PollReads then 1 else 0) := by
  obtain ⟨-, ht⟩ | ⟨hrst, hp, ht⟩ | ⟨-, ht⟩ := step_next_core h
  · rw [ht]
    exact Nat.le_trans s.core.readsToDecode_le (Nat.le_add_right 26 _)
  · have hsize : s.present.pollCase.size = 0 ↔ ¬ s.PollReads := by
      have hpos := s.core.sync.need_pos
      rw [State.pollCase_size, State.present_q, List.length_append, State.present_core]
      simp only [State.PollReads, hrst, hp, true_and]
      split_ifs <;> omega
    have heffect := PollCase.readsToDecode_le_effect (q := s.present.q) (d := s.core) s.present.pollCase_sync.symm
      (State.cur_of_sEndOk (s := s.present))
    rw [ht]
    simpa only [hsize, ite_not] using heffect
  · rw [ht]
    exact Nat.le_add_right _ _

/-- No valid frame has been counted or decoded. -/
structure CoreState.Undecoded (c : CoreState) : Prop where
  ch : c.ch = Vector.replicate 18 0
  fs : c.fs = .ok
  nValid : c.nValid = 0

/-- Only a POLL in SYNCED that reads decodes. -/
theorem step_keeps_undecoded {s t : State} (h : step s = .next t) (hs : s.core.Undecoded)
    (hread : s.core.sync = .synced → ¬ s.PollReads) : t.core.Undecoded := by
  cases hrst : s.nextInput.rst with
  | true => exact step_core_of_reset hrst h ▸ ⟨rfl, rfl, rfl⟩
  | false =>
    obtain hkept | ⟨hp, hsync, hcount⟩ := step_records hrst h
    · exact ⟨hkept.ch.trans hs.ch, hkept.fs.trans hs.fs, hkept.nValid.trans hs.nValid⟩
    · generalize t.core = d at hcount
      cases hcount with
      | valid F rest hq hF =>
        have hneed : s.core.sync.need ≤ s.q.length + s.nextInput.feed.length := by
          rw [← List.length_append, hq, List.length_append, F.length_toList, hsync]
          exact Nat.le_add_right 25 _
        exact absurd ⟨hrst, hp, hneed⟩ (hread hsync)
      | invalid => exact ⟨hs.ch, hs.fs, hs.nValid⟩
      | resync => exact ⟨hs.ch, hs.fs, hs.nValid⟩

/-- A run with fewer reads than a decode takes decodes nothing, with a Byte Source that delivers. -/
theorem run_undecoded (n : Nat) {s : State} (hi : ∀ h ∈ s.inputs, ∀ k, h.deliver = some k → 25 ≤ k)
    (hs : s.core.Undecoded) (hreads : pollsThatRead n s < s.core.readsToDecode) :
    ∃ t, run n s = .next t ∧ t.core.Undecoded := by
  induction n generalizing s with
  | zero => exact ⟨s, rfl, hs⟩
  | succ n ih =>
    have hcap : ∀ k, s.nextInput.deliver = some k → 25 ≤ k := State.nextInput_of_forall nofun hi
    obtain ⟨u, hstep⟩ := stepCompletesUnderContract.1 s fun _ _ _ k hk =>
      Nat.le_trans s.core.sync.need_le (hcap k hk)
    rw [pollsThatRead_succ hstep] at hreads
    have hnear := step_readsToDecode hstep
    have hu : u.core.Undecoded := step_keeps_undecoded hstep hs fun hsync hread => by
      rw [if_pos hread, CoreState.readsToDecode_synced hsync] at hreads
      omega
    obtain ⟨t, hrun, ht⟩ := ih (step_next_inputs_forall hstep hi) hu (by omega)
    exact ⟨t, (run_succ hstep).trans hrun, ht⟩

/-! ### The first decode -/

/-- Bytes fed at the coming step might as well be queued before it. -/
theorem step_feed_eq_step_queued {s : State} {h : HostInput} {rest : List HostInput} (hi : s.inputs = h :: rest) :
    step s = step { s with q := s.q ++ h.feed, inputs := { h with feed := [] } :: rest } := by
  simp [step, State.present, State.nextInput, HostInput.instr, hi]

theorem run_succ_congr {n : Nat} {s s' : State} (h : step s = step s') : run (n + 1) s = run (n + 1) s' := by
  simp only [run, h]

/-- With two well-marked frames queued in UNSYNCED, the 26th POLL decodes the second. -/
theorem run_search_then_decode {s : State} {F G : Frame} (hF : MarkersHold F) (hG : MarkersHold G)
    (hs : s.core.sync = .unsynced) (hq : s.q = F.toList ++ G.toList) (hi : s.inputs = polls 26) :
    ∃ t, run 26 s = .next t ∧ t.core.ch = G.channels ∧ t.core.fs = G.failsafe ∧
      t.core.nValid = s.core.nValid + 1 ∧ t.q = [] := by
  obtain ⟨u, hsearch, hucore, huq, hui⟩ := searchTakesTwentyFivePolls s F G.toList (polls 1) hs hF hq hi
  have huq' : u.q = G.toList ++ [] := by rw [huq, List.append_nil]
  obtain ⟨t, hdecode, htcore, htq, -⟩ :=
    step_poll_of_meets (c := .yValid) (rest := []) hui ⟨by rw [hucore], G, [], huq', hG⟩
  rw [huq', PollCase.effect, frameOf_append, hucore] at htcore
  refine ⟨t, (run_add hsearch).trans (run_succ (n := 0) hdecode), ?_, ?_, ?_, ?_⟩
  · rw [htcore, CoreState.decodeFrame_ch]
  · rw [htcore, CoreState.decodeFrame_fs]
  · rw [htcore, CoreState.decodeFrame_nValid]
  · rw [htq, huq]
    exact List.drop_of_length_le (Nat.le_of_eq G.length_toList)

/-- Settles O60: the first decode is 26 reads away after reset, and each read brings it nearer by at most one; two frames
fed at the first POLL are found and decoded as if they had been queued. -/
theorem firstDecodeIsTwentySixthPoll : Obligations.FirstDecodeIsTwentySixthPoll := by
  refine ⟨fun n script hi hreads => ?_, fun F G hF hG => ?_⟩
  · obtain ⟨t, hrun, ht⟩ := run_undecoded n (s := { State.reset with inputs := script }) hi ⟨rfl, rfl, rfl⟩
      (Nat.lt_succ_of_le hreads)
    exact ⟨t, hrun, ht.ch, ht.fs, ht.nValid⟩
  · rw [run_succ_congr (step_feed_eq_step_queued rfl)]
    exact run_search_then_decode hF hG rfl rfl rfl

end Sys2Proof.Machine
end
